-- ==== Sys2Proof/Word.lean ====
section
/-! DEFINITION. The widths of the values this hardware handles. -/

namespace Sys2Proof

/-- An unsigned 32-bit word: seed, result and every intermediate value (00_scope.md R7, R11, R13). -/
abbrev Word := BitVec 32

/-- A 6-bit stage descriptor, dir in bit 5 and amt in bits 4:0 (30_encoding.md R56). -/
abbrev Descriptor := BitVec 6

end Sys2Proof
end

