-- ==== Sys2Proof/Config.lean ====
section
/-! DEFINITION. What is fixed for the machine and what the spec leaves free.

Each free value is a constant without a body, applied to the index of the cycle in which it is drawn
(42_pipeline_protocol.md R110: a claim about the block is a claim about every draw). -/

namespace Sys2Proof

/-- The pipeline stages: `PIPE_DEPTH` is 3, one register stage per shift-xor step (00_scope.md R9, 10_state.md R18). -/
inductive Stage where
  | s1
  | s2
  | s3
deriving DecidableEq, Repr, Inhabited

/-- The direction of a logical shift (30_encoding.md R56: dir 0 is left, dir 1 is right). -/
inductive Dir where
  | left
  | right
deriving DecidableEq, Repr, Inhabited

/-- The four inputs of one clock cycle (42_pipeline_protocol.md R93, 10_state.md R30). -/
structure Inputs where
  rst : Bool
  inValid : Bool
  inData : Word
  outReady : Bool
deriving DecidableEq, Repr, Inhabited

/-- What an unspecified load leaves in `s1_d`: at a reset edge (70_reset_and_hazards.md R128), or at an
advancing edge with `in_valid = 0` (42_pipeline_protocol.md R98). Log 4, log 5. -/
opaque Config.freeStage1 : Nat → Word

/-- What an unspecified load leaves in `s2_d`: at a reset edge (70_reset_and_hazards.md R128), or at an
advancing edge with `s1_v = 0` (42_pipeline_protocol.md R98). Log 4, log 5. -/
opaque Config.freeStage2 : Nat → Word

/-- What an unspecified load leaves in `s3_d`: at a reset edge (70_reset_and_hazards.md R128), or at an
advancing edge with `s2_v = 0` (42_pipeline_protocol.md R98). Log 4, log 5. -/
opaque Config.freeStage3 : Nat → Word

/-- `out_data` in a cycle with `out_valid = 0` (42_pipeline_protocol.md R95). Log 6. -/
opaque Config.freeOutData : Nat → Word

/-- `in_data` in a cycle whose stimulus row writes it as `-` (30_encoding.md R64). Log 7. -/
opaque Config.freeInData : Nat → Word

/-- What the caller drives in a cycle that the stimulus says nothing about
(42_pipeline_protocol.md R103: the caller may drive anything in any cycle). Log 2. -/
opaque Config.freeInputs : Nat → Inputs

end Sys2Proof
end

