-- ==== Sys2Proof/Syntax.lean ====
section
/-! DEFINITION. The operations of the opcode table, one constructor per row. -/

namespace Sys2Proof

/-- The operations of opcode_table.json. `NEXT` is the one interface operation; the other three are
hardwired to their stages (30_encoding.md R51, R55, R57). -/
inductive Instr where
  /-- `NEXT seed`: the whole 32-bit port word is the operand (30_encoding.md R54, R55). -/
  | next (seed : Word)
  /-- `XSL13`, the operation of stage 1 (40_shift_xor_steps.md R66). -/
  | xsl13
  /-- `XSR17`, the operation of stage 2 (40_shift_xor_steps.md R67). -/
  | xsr17
  /-- `XSL15`, the operation of stage 3 (40_shift_xor_steps.md R68). -/
  | xsl15
deriving DecidableEq, Repr

end Sys2Proof
end

