-- ==== Sys2Proof/WellFormed.lean ====
section
/-! DEFINITION. Where an operation may stand, and which sequences of operations are legal. Every `Instr` has
its operand at the operand's full width, so what can be ill-formed is its place. -/

namespace Sys2Proof

/-- Where an operation stands: on the input port, or in one of the stages. -/
inductive Place where
  | port
  | stage (k : Stage)
deriving DecidableEq, Repr

/-- `NEXT` is issued on the port (30_encoding.md R55); each stage operation is hardwired to its stage
(30_encoding.md R57). -/
def Instr.place : Instr → Place
  | .next _ => .port
  | .xsl13 => .stage .s1
  | .xsr17 => .stage .s2
  | .xsl15 => .stage .s3

/-- The check that operation `i` may stand at place `p` (30_encoding.md R57, R59). -/
def Instr.wellFormedAt (p : Place) (i : Instr) : Bool :=
  i.place = p

/-- A caller's script holds `NEXT` only: the caller cannot issue a stage operation (30_encoding.md R62). -/
def wellFormedScript (is : List Instr) : Bool :=
  is.all (Instr.wellFormedAt .port)

/-- A datapath listing is the three stage operations in order, once each (40_shift_xor_steps.md R69,
30_encoding.md R59). -/
def wellFormedListing (is : List Instr) : Bool :=
  is = [.xsl13, .xsr17, .xsl15]

/-- `ITER n` needs `n >= 1` (30_encoding.md R63). -/
def wellFormedIterCount (n : Nat) : Bool :=
  1 ≤ n

end Sys2Proof
end

