-- ==== Sys2Proof/Decode.lean ====
section
/-! DEFINITION. The decoder and, after it, the encoder.

There is no instruction word and no opcode field (30_encoding.md R51). A code word is either a whole port word in
format PORT32 or a descriptor in format DESC6 at a stage. -/

namespace Sys2Proof

/-- A word a decoder is given, with the format that says how to read it. -/
inductive CodeWord where
  /-- A word on `in_data`, format PORT32 (30_encoding.md R52). -/
  | port (w : Word)
  /-- A descriptor at a stage, format DESC6 (30_encoding.md R56). -/
  | desc (stage : Stage) (d : Descriptor)
deriving DecidableEq, Repr

/-- Why the decoder refuses (30_encoding.md R59). -/
inductive Reject where
  /-- The descriptor value names no operation of this hardware. -/
  | reservedDescriptor (stage : Stage) (d : Descriptor)
  /-- The descriptor is another stage's: it stands out of its order. -/
  | wrongStage (stage : Stage) (d : Descriptor)
  /-- The listing has another count of stage operations than three. -/
  | listingCount (n : Nat)
deriving DecidableEq, Repr

/-- Bit 5 of a descriptor: 0 is a left shift, 1 is a right shift (30_encoding.md R56). -/
def Descriptor.dir (d : Descriptor) : Dir :=
  if d.extractLsb' 5 1 = 1#1 then .right else .left

/-- Bits 4:0 of a descriptor: the shift amount (30_encoding.md R56). -/
def Descriptor.amt (d : Descriptor) : Nat :=
  (d.extractLsb' 0 5).toNat

/-- A DESC6 row of the opcode table, with the stage it is hardwired to (30_encoding.md R57). -/
structure DescRow where
  stage : Stage
  mask : Descriptor
  value : Descriptor
  op : Instr
deriving DecidableEq, Repr

/-- The table of 30_encoding.md R57. -/
def descTable : List DescRow :=
  [ { stage := .s1, mask := 0x3F#6, value := 0x0D#6, op := .xsl13 },
    { stage := .s2, mask := 0x3F#6, value := 0x31#6, op := .xsr17 },
    { stage := .s3, mask := 0x3F#6, value := 0x0F#6, op := .xsl15 } ]

/-- Whether a descriptor has a row's value under the row's mask. -/
def DescRow.matchesWord (r : DescRow) (d : Descriptor) : Bool :=
  d &&& r.mask = r.value

/-- The row a descriptor selects, if it names an operation at all. -/
def descRow (d : Descriptor) : Option DescRow :=
  descTable.find? (fun r => r.matchesWord d)

/-- A descriptor decodes only in the stage it is hardwired to (30_encoding.md R59). -/
def decodeDesc (k : Stage) (d : Descriptor) : Except Reject Instr :=
  match descRow d with
  | none => .error (.reservedDescriptor k d)
  | some r => if r.stage = k then .ok r.op else .error (.wrongStage k d)

/-- The decoder, total on any code word. Every port word is a `NEXT` operand (30_encoding.md R55, R58). -/
def decode : CodeWord → Except Reject Instr
  | .port w => .ok (.next w)
  | .desc k d => decodeDesc k d

/-- The stage whose turn it is when `n` descriptors of a listing are still to run: the listing goes through stages
1, 2 and 3 in that order, so with three left it is stage 1's turn (40_shift_xor_steps.md R69). -/
def stageWithRemaining : Nat → Option Stage
  | 3 => some .s1
  | 2 => some .s2
  | 1 => some .s3
  | _ => none

/-- The rest of a listing, each descriptor decoded in the stage whose turn it is. -/
def decodeListingRest : List Descriptor → Except Reject (List Instr)
  | [] => .ok []
  | d :: ds =>
    match stageWithRemaining (ds.length + 1) with
    | none => .error (.listingCount (ds.length + 1))
    | some k =>
      match decodeDesc k d with
      | .error r => .error r
      | .ok i =>
        match decodeListingRest ds with
        | .error r => .error r
        | .ok is => .ok (i :: is)

/-- A whole datapath listing: three descriptors, each in its own stage (30_encoding.md R59). -/
def decodeListing (ds : List Descriptor) : Except Reject (List Instr) :=
  if ds.length = 3 then decodeListingRest ds else .error (.listingCount ds.length)

/-- The format and, for DESC6, the stage of a word that stands alone, numbered as opcode_table.json numbers its bits.
A word of 1 to 8 bits is a descriptor, which stands in the stage its value is hardwired to (stage 1 where it names none,
and is refused there); anything longer is a port word, and so is a word of no bits, since `NEXT` is the row with no
fixed bit. `none` where the format has no such bits. Log 13. -/
def tableCodeWord (nbits w : Nat) : Option CodeWord :=
  if 1 ≤ nbits ∧ nbits ≤ 8 then
    if w < 64 then
      let d := BitVec.ofNat 6 w
      some (.desc (((descRow d).map DescRow.stage).getD .s1) d)
    else none
  else if w < 2 ^ 32 then some (.port (BitVec.ofNat 32 w))
  else none

/-- The instruction the decoder reads from an opcode-table word of `nbits` bits. -/
def decodeTableWord (nbits w : Nat) : Option Instr :=
  match tableCodeWord nbits w with
  | none => none
  | some c =>
    match decode c with
    | .ok i => some i
    | .error _ => none

/-- A descriptor from its fields, `{dir, amt}` (30_encoding.md R56). -/
def mkDescriptor (dir : BitVec 1) (amt : BitVec 5) : Descriptor :=
  dir ++ amt

/-- The encoder: the seed is the port word itself (30_encoding.md R62), and a stage operation is its descriptor at its
stage (30_encoding.md R57). -/
def encode : Instr → CodeWord
  | .next seed => .port seed
  | .xsl13 => .desc .s1 (mkDescriptor 0b0#1 0b01101#5)
  | .xsr17 => .desc .s2 (mkDescriptor 0b1#1 0b10001#5)
  | .xsl15 => .desc .s3 (mkDescriptor 0b0#1 0b01111#5)

/-- The place a code word stands at. -/
def CodeWord.place : CodeWord → Place
  | .port _ => .port
  | .desc k _ => .stage k

end Sys2Proof
end

