-- ==== Sys2Proof/Machine/State.lean ====
section
/-! DEFINITION. The state of the block, plain data, and the state after reset. -/

namespace Sys2Proof.Machine

/-- The outputs of a cycle that `out_ready` may depend on: `in_ready` is not among them, since it depends on `out_ready`
(42_pipeline_protocol.md R104). -/
inductive ReadySignal where
  | outValid
  | outDataBit (i : Fin 32)
deriving DecidableEq, Repr

/-- The outputs of a cycle that `in_valid` and `in_data` may depend on: all of them (42_pipeline_protocol.md R104). -/
inductive OfferSignal where
  | inReady
  | outValid
  | outDataBit (i : Fin 32)
deriving DecidableEq, Repr

/-- How a stimulus row gives a one-bit input: a function of the same cycle's outputs, written as an expression over the signals
it may name (30_encoding.md R64). -/
inductive BitDrive (σ : Type) where
  | level (b : Bool)
  | signal (x : σ)
  | not (a : BitDrive σ)
  | and (a b : BitDrive σ)
  | or (a b : BitDrive σ)
  | xor (a b : BitDrive σ)
deriving DecidableEq, Repr

/-- How a stimulus row gives `in_data`: `-`, or a function of the same cycle's outputs, written as an expression
(30_encoding.md R64). `mux` chooses by a one-bit expression. -/
inductive DataDrive where
  | dash
  | word (w : Word)
  | outData
  | and (a b : DataDrive)
  | or (a b : DataDrive)
  | xor (a b : DataDrive)
  | add (a b : DataDrive)
  | shiftLeft (a : DataDrive) (k : Nat)
  | shiftRight (a : DataDrive) (k : Nat)
  | mux (c : BitDrive OfferSignal) (a b : DataDrive)
deriving DecidableEq, Repr

/-- One row of a cycle stimulus: the four inputs of one cycle (30_encoding.md R64). `rst` is a level, since every output
depends on it (42_pipeline_protocol.md R94, R95; log 22). -/
structure Row where
  rst : Bool
  inValid : BitDrive OfferSignal
  inData : DataDrive
  outReady : BitDrive ReadySignal
deriving DecidableEq, Repr

/-- The block raises no exception, for any operand and in any cycle, and a model of it has no fault outcome
(60_exceptions.md R111): nobody raises a fault, so there is no constructor. Safe. -/
inductive Fault where
deriving DecidableEq, Repr

/-- Why a step has no meaning. -/
inductive Refusal where
  /-- Raised by an arm of `exec` whose operation has no meaning yet; no arm is such an arm now. Safe. -/
  | notModelled (mnemonic : String)
  /-- Raised by `step` on a descriptor that names no operation (30_encoding.md R59, U7). Safe. -/
  | reservedDescriptor (stage : Stage) (d : Descriptor)
  /-- Raised by `step` on a descriptor of another stage than the one whose turn it is (30_encoding.md R59, U7). Safe. -/
  | wrongStage (stage : Stage) (d : Descriptor)
  /-- Raised by `step` on a datapath listing with more than three descriptors left (30_encoding.md R59, U7). Safe. -/
  | listingCount (n : Nat)
deriving DecidableEq, Repr

/-- The state in one cycle: the six registers (10_state.md R18), the recorded history that 10_state.md R30 allows, and
what the caller drives, held as data because the step takes no argument (log 1). -/
structure State where
  /-- Stage 1 holds a transaction. -/
  s1_v : Bool
  /-- `XSL13(w)` of stage 1's seed. -/
  s1_d : Word
  /-- Stage 2 holds a transaction. -/
  s2_v : Bool
  /-- `XSR17(XSL13(w))` of stage 2's seed. -/
  s2_d : Word
  /-- Stage 3, the output stage, holds a transaction. -/
  s3_v : Bool
  /-- `xorshift32(w)` of stage 3's seed. -/
  s3_d : Word
  /-- The caller's rows, the current cycle's first (30_encoding.md R64). The model's own field (log 1). -/
  stimulus : List Row
  /-- The descriptors of a datapath listing still to run (30_encoding.md R62). The model's own field (log 10). -/
  listing : List Descriptor
  /-- Seeds accepted since the last reset edge, oldest first (10_state.md R30, 70_reset_and_hazards.md R140). -/
  accepted : List Word
  /-- Results delivered since the last reset edge, oldest first (10_state.md R30, 70_reset_and_hazards.md R140). -/
  delivered : List Word
  /-- The index of this cycle's free values. The model's own field (log 26). -/
  drawIndex : Nat
deriving DecidableEq, Repr

/-- The state right after a reset edge: the valid bits are 0 (70_reset_and_hazards.md R127). The spec leaves the data
registers unspecified (R128); they are zero here, DESIGN CHOICE, log 3, and no statement rests on it. -/
def State.reset : State :=
  { s1_v := false, s1_d := 0#32,
    s2_v := false, s2_d := 0#32,
    s3_v := false, s3_d := 0#32,
    stimulus := [], listing := [],
    accepted := [], delivered := [],
    drawIndex := 0 }

end Sys2Proof.Machine
end

