-- ==== Sys2Proof/Machine/Flags.lean ====
section
/-! DEFINITION. The one-bit signals of a cycle, the events at its closing edge, and the output word.

The block has no flags, condition codes or status bits (10_state.md R23, R24): no operation computes one. What a
caller sees beside the data is the handshake (10_state.md R28), and this file holds all of it. -/

namespace Sys2Proof.Machine

/-- `out_valid = s3_v AND (NOT rst)` (42_pipeline_protocol.md R95). -/
def State.outValid (s : State) (rst : Bool) : Bool :=
  s.s3_v && !rst

/-- `out_data`: `s3_d` while `out_valid = 1`, else a free value (42_pipeline_protocol.md R95). -/
def State.outData (s : State) (rst : Bool) : Word :=
  if s.outValid rst then s.s3_d else Config.freeOutData s.drawIndex

/-- `adv = (NOT s3_v) OR out_ready` (42_pipeline_protocol.md R97). -/
def State.adv (s : State) (outReady : Bool) : Bool :=
  !s.s3_v || outReady

/-- `in_ready = (NOT rst) AND ((NOT s3_v) OR out_ready)` (42_pipeline_protocol.md R94). -/
def State.inReady (s : State) (rst outReady : Bool) : Bool :=
  !rst && s.adv outReady

/-- The seed accepted at the edge that ends this cycle, if any (42_pipeline_protocol.md R99). -/
def State.accept (s : State) (p : Inputs) : Option Word :=
  if p.inValid && s.inReady p.rst p.outReady then some p.inData else none

/-- The result delivered at the edge that ends this cycle, if any (42_pipeline_protocol.md R100). -/
def State.deliver (s : State) (p : Inputs) : Option Word :=
  if s.outValid p.rst && p.outReady then some (s.outData p.rst) else none

end Sys2Proof.Machine
end

