-- ==== Sys2Proof/Machine/Operands.lean ====
section
/-! DEFINITION. The input ports of the current cycle, and the operand each operation reads. -/

namespace Sys2Proof.Machine

/-- The value of a signal `out_ready` may name. -/
def ReadySignal.value (outValid : Bool) (outData : Word) : ReadySignal → Bool
  | .outValid => outValid
  | .outDataBit i => outData.getLsbD i

/-- The value of a signal `in_valid` and `in_data` may name. -/
def OfferSignal.value (inReady outValid : Bool) (outData : Word) : OfferSignal → Bool
  | .inReady => inReady
  | .outValid => outValid
  | .outDataBit i => outData.getLsbD i

/-- The value of a one-bit expression. -/
def BitDrive.eval {σ : Type} (value : σ → Bool) : BitDrive σ → Bool
  | .level b => b
  | .signal x => value x
  | .not a => !a.eval value
  | .and a b => a.eval value && b.eval value
  | .or a b => a.eval value || b.eval value
  | .xor a b => a.eval value ^^ b.eval value

/-- The value of an expression for `in_data` (30_encoding.md R64). A dash is a free value of cycle `n`. -/
def DataDrive.eval (value : OfferSignal → Bool) (outData : Word) (n : Nat) : DataDrive → Word
  | .dash => Config.freeInData n
  | .word w => w
  | .outData => outData
  | .and a b => a.eval value outData n &&& b.eval value outData n
  | .or a b => a.eval value outData n ||| b.eval value outData n
  | .xor a b => a.eval value outData n ^^^ b.eval value outData n
  | .add a b => a.eval value outData n + b.eval value outData n
  | .shiftLeft a k => a.eval value outData n <<< k
  | .shiftRight a k => a.eval value outData n >>> k
  | .mux c a b => if c.eval value then a.eval value outData n else b.eval value outData n

/-- The `out_ready` a row gives for the same cycle's `out_valid` and `out_data`. -/
def Row.outReadyWith (r : Row) (outValid : Bool) (outData : Word) : Bool :=
  r.outReady.eval (ReadySignal.value outValid outData)

/-- The `in_valid` a row gives for the same cycle's outputs. -/
def Row.inValidWith (r : Row) (inReady outValid : Bool) (outData : Word) : Bool :=
  r.inValid.eval (OfferSignal.value inReady outValid outData)

/-- The `in_data` a row gives for the same cycle's outputs, in cycle `n`. -/
def Row.inDataWith (r : Row) (inReady outValid : Bool) (outData : Word) (n : Nat) : Word :=
  r.inData.eval (OfferSignal.value inReady outValid outData) outData n

/-- The inputs a row gives in state `s`. No combinational cycle forms: `out_valid` and `out_data` depend on the registers and on
`rst`, then `out_ready` on them, then `in_ready` on it, and then what is offered (42_pipeline_protocol.md R104). -/
def Row.inputs (r : Row) (s : State) : Inputs :=
  let outValid := s.outValid r.rst
  let outData := s.outData r.rst
  let outReady := r.outReadyWith outValid outData
  let inReady := s.inReady r.rst outReady
  { rst := r.rst
    inValid := r.inValidWith inReady outValid outData
    inData := r.inDataWith inReady outValid outData s.drawIndex
    outReady := outReady }

/-- The inputs of the current cycle: the first row's, or a free value where no row is left (log 2). -/
def State.inputs (s : State) : Inputs :=
  match s.stimulus with
  | [] => Config.freeInputs s.drawIndex
  | r :: _ => r.inputs s

/-- The operand of `XSL13`: the word on `in_data` (40_shift_xor_steps.md R66, 30_encoding.md R54). -/
def State.xsl13Operand (s : State) : Word :=
  s.inputs.inData

/-- The operand of `XSR17`: `s1_d` (40_shift_xor_steps.md R67). -/
def State.xsr17Operand (s : State) : Word :=
  s.s1_d

/-- The operand of `XSL15`: `s2_d` (40_shift_xor_steps.md R68). -/
def State.xsl15Operand (s : State) : Word :=
  s.s2_d

end Sys2Proof.Machine
end

