-- ==== Sys2Proof/Machine/Ops.lean ====
section
/-! DEFINITION. The shift-xor operations as functions on words, and the clock cycle as an operation on the state.

There is no exception to take and none to return from (60_exceptions.md R111, R116, R117). The one event that overrides
an operation is the reset edge, written once here (`State.clear`). -/

namespace Sys2Proof.Machine

/-- `ShiftXor(dir, k, x)`: both shifts are logical and the result is a 32-bit word (40_shift_xor_steps.md R65). -/
def shiftXor (dir : Dir) (k : Nat) (x : Word) : Word :=
  match dir with
  | .left => x ^^^ (x <<< k)
  | .right => x ^^^ (x >>> k)

/-- The operation of stage 1 (40_shift_xor_steps.md R66). -/
def xsl13 (x : Word) : Word := shiftXor .left 13 x

/-- The operation of stage 2 (40_shift_xor_steps.md R67). -/
def xsr17 (x : Word) : Word := shiftXor .right 17 x

/-- The operation of stage 3 (40_shift_xor_steps.md R68). -/
def xsl15 (x : Word) : Word := shiftXor .left 15 x

/-- The operation hardwired to a stage (40_shift_xor_steps.md R69). -/
def stageOp : Stage → Word → Word
  | .s1 => xsl13
  | .s2 => xsr17
  | .s3 => xsl15

/-- The transform (41_next_transform.md R77). -/
def xorshift32 (x : Word) : Word :=
  let a := xsl13 x
  let b := xsr17 a
  let c := xsl15 b
  c

/-- The inverse of `XSL13` (40_shift_xor_steps.md R72). -/
def xsl13Inv (y : Word) : Word := y ^^^ (y <<< 13) ^^^ (y <<< 26)

/-- The inverse of `XSR17` (40_shift_xor_steps.md R72). -/
def xsr17Inv (y : Word) : Word := y ^^^ (y >>> 17)

/-- The inverse of `XSL15` (40_shift_xor_steps.md R72). -/
def xsl15Inv (y : Word) : Word := y ^^^ (y <<< 15) ^^^ (y <<< 30)

/-- The inverse of the transform (41_next_transform.md R87). -/
def xorshift32Inv (y : Word) : Word := xsl13Inv (xsr17Inv (xsl15Inv y))

/-- Write `s1_d` and nothing else. -/
def State.writeS1 (s : State) (w : Word) : State := { s with s1_d := w }

/-- Write `s2_d` and nothing else. -/
def State.writeS2 (s : State) (w : Word) : State := { s with s2_d := w }

/-- Write `s3_d` and nothing else. -/
def State.writeS3 (s : State) (w : Word) : State := { s with s3_d := w }

/-- The advancing edge: every stage loads from the one before it, all from the values before the edge. A data register
loaded from an invalid stage is a free value (42_pipeline_protocol.md R98). -/
def State.advance (s : State) (p : Inputs) : State :=
  { s with
    s1_v := p.inValid
    s1_d := if p.inValid then xsl13 p.inData else Config.freeStage1 s.drawIndex
    s2_v := s.s1_v
    s2_d := if s.s1_v then xsr17 s.s1_d else Config.freeStage2 s.drawIndex
    s3_v := s.s2_v
    s3_d := if s.s2_v then xsl15 s.s2_d else Config.freeStage3 s.drawIndex }

/-- The reset edge: the valid bits become 0 (70_reset_and_hazards.md R127), the data registers are free values (R128), and
the caller's count restarts (R140). -/
def State.clear (s : State) : State :=
  { s with
    s1_v := false
    s1_d := Config.freeStage1 s.drawIndex
    s2_v := false
    s2_d := Config.freeStage2 s.drawIndex
    s3_v := false
    s3_d := Config.freeStage3 s.drawIndex
    accepted := []
    delivered := [] }

/-- Add the events of the cycle to the history (10_state.md R30). -/
def State.record (s : State) (p : Inputs) : State :=
  { s with
    accepted := s.accepted ++ (s.accept p).toList
    delivered := s.delivered ++ (s.deliver p).toList }

/-- The edge update: reset, advance or stall (42_pipeline_protocol.md R98). -/
def State.edge (s : State) (p : Inputs) : State :=
  if p.rst then s.clear
  else if s.adv p.outReady then (s.record p).advance p
  else s

/-- Go to the next cycle: the next row is the current one, and the free values are new ones. -/
def State.nextCycle (s : State) : State :=
  { s with
    stimulus := s.stimulus.tail
    drawIndex := s.drawIndex + 1 }

/-- One whole clock cycle with inputs `p` (42_pipeline_protocol.md R109). -/
def State.clockCycle (s : State) (p : Inputs) : State :=
  (s.edge p).nextCycle

end Sys2Proof.Machine
end

