-- ==== Sys2Proof/Machine/Next.lean ====
section
/-! DEFINITION. The meaning of `NEXT`, and of a cycle without a transaction. -/

namespace Sys2Proof.Machine

/-- The inputs of a cycle in which the caller offers `seed`: `in_valid = 1` and `in_data = seed`, with `rst` and `out_ready`
as the cycle has them (30_encoding.md R62). -/
def Inputs.offering (p : Inputs) (seed : Word) : Inputs :=
  { p with inValid := true, inData := seed }

/-- `NEXT seed` (41_next_transform.md R78): one clock cycle in which the caller offers `seed`. The block accepts it at the
closing edge if `in_ready = 1` (42_pipeline_protocol.md R99) and then carries it through the stages; its result is
delivered by a later cycle, in order. If `in_ready = 0` the seed leaves no trace, and the rest of the cycle happens. -/
def execNext (seed : Word) (s : State) : Host.Outcome State Fault Refusal :=
  .next (s.clockCycle (Inputs.offering s.inputs seed))

/-- A cycle with `in_valid = 0` carries no transaction and is not an operation (30_encoding.md R60); its edge happens all the
same (42_pipeline_protocol.md R102). -/
def idleCycle (s : State) : Host.Outcome State Fault Refusal :=
  .next (s.clockCycle s.inputs)

end Sys2Proof.Machine
end

