-- ==== Sys2Proof/Machine/Stages.lean ====
section
/-! DEFINITION. The meanings of the stage operations, each alone. A stage operation reads its input word and writes its
register's data word, and touches nothing else: no valid bit, no other stage, no transaction
(40_shift_xor_steps.md R75). -/

namespace Sys2Proof.Machine

/-- `XSL13`: `s1_d` is loaded with `XSL13(in_data)` (40_shift_xor_steps.md R66). -/
def execXsl13 (s : State) : Host.Outcome State Fault Refusal :=
  .next (s.writeS1 (xsl13 s.xsl13Operand))

/-- `XSR17`: `s2_d` is loaded with `XSR17(s1_d)` (40_shift_xor_steps.md R67). -/
def execXsr17 (s : State) : Host.Outcome State Fault Refusal :=
  .next (s.writeS2 (xsr17 s.xsr17Operand))

/-- `XSL15`: `s3_d` is loaded with `XSL15(s2_d)` (40_shift_xor_steps.md R68). -/
def execXsl15 (s : State) : Host.Outcome State Fault Refusal :=
  .next (s.writeS3 (xsl15 s.xsl15Operand))

end Sys2Proof.Machine
end

