-- ==== Sys2Proof/Machine/Dispatch.lean ====
section
/-! DEFINITION. One arm per operation of the opcode table. -/

namespace Sys2Proof.Machine

/-- The meaning of an operation. -/
def exec (i : Instr) (s : State) : Host.Outcome State Fault Refusal :=
  match i with
  | .next seed => Sys2Proof.Machine.execNext seed s
  | .xsl13 => Sys2Proof.Machine.execXsl13 s
  | .xsr17 => Sys2Proof.Machine.execXsr17 s
  | .xsl15 => Sys2Proof.Machine.execXsl15 s

end Sys2Proof.Machine
end

