-- ==== Sys2Proof/Machine/Fetch.lean ====
section
/-! DEFINITION. What a step runs next. The block fetches nothing (20_memory.md R48): the handshake alone selects `NEXT`
(30_encoding.md R51), and a stage descriptor comes from a datapath listing only (30_encoding.md R62). -/

namespace Sys2Proof.Machine

/-- What the next step has before it. -/
inductive Fetched where
  /-- A word for the decoder. -/
  | code (c : CodeWord)
  /-- A cycle in which the caller offers nothing (30_encoding.md R60). -/
  | idle
  /-- A datapath listing with too many descriptors (30_encoding.md R59). -/
  | badCount (n : Nat)
deriving DecidableEq, Repr

/-- A listing that is still to run comes first: its next descriptor stands in the stage whose turn it is. Otherwise the
current cycle runs: the port word if `in_valid = 1`, nothing if `in_valid = 0`. -/
def State.fetch (s : State) : Fetched :=
  match s.listing with
  | [] => if s.inputs.inValid then .code (.port s.inputs.inData) else .idle
  | d :: ds =>
    match stageWithRemaining (ds.length + 1) with
    | some k => .code (.desc k d)
    | none => .badCount (ds.length + 1)

/-- The state an operation runs in: its descriptor is taken off the listing. A port word is consumed by its cycle, not
here. -/
def State.afterFetch (s : State) : State :=
  { s with listing := s.listing.tail }

/-- The refusal for a word the decoder refuses, under the same name. -/
def refusalOf : Reject → Refusal
  | .reservedDescriptor k d => .reservedDescriptor k d
  | .wrongStage k d => .wrongStage k d
  | .listingCount n => .listingCount n

/-- The listing that begins with descriptor `d` in the stage it is hardwired to: the stages after that stage follow it, as the
wiring has them (40_shift_xor_steps.md R69). A descriptor that names no operation stands alone, and is refused. -/
def listingFrom (d : Descriptor) : List Descriptor :=
  match (descRow d).map DescRow.stage with
  | some .s1 => [d, 0x31#6, 0x0F#6]
  | some .s2 => [d, 0x0F#6]
  | some .s3 => [d]
  | none => [d]

/-- Place a code word where the next step takes it. A port word is a new first row that offers it with `rst = 0` and
`out_ready = 1`, and no listing stands before it. A descriptor starts a listing. Log 14. -/
def State.placeCode (s : State) (c : CodeWord) : State :=
  match c with
  | .port w =>
    { s with
      listing := []
      stimulus :=
        { rst := false, inValid := .level true, inData := .word w, outReady := .level true } :: s.stimulus }
  | .desc _ d => { s with listing := listingFrom d }

end Sys2Proof.Machine
end

