-- ==== Sys2Proof/Machine/Step.lean ====
section
/-! DEFINITION. One step: one clock cycle, or one descriptor of a datapath listing. -/

namespace Sys2Proof.Machine

/-- The step: fetch, decode, execute. A cycle in which nothing is offered runs without a transaction. -/
def step (s : State) : Host.Outcome State Fault Refusal :=
  match s.fetch with
  | .idle => idleCycle s
  | .badCount n => .refused (.listingCount n)
  | .code c =>
    match decode c with
    | .ok i => exec i s.afterFetch
    | .error r => .refused (refusalOf r)

/-- `s` with an opcode-table word of `nbits` bits placed where the next step takes it (log 13, log 14). A word the formats have
no bits for is left out. -/
def State.withFetchWord (s : State) (nbits w : Nat) : State :=
  match tableCodeWord nbits w with
  | some c => s.placeCode c
  | none => s

end Sys2Proof.Machine
end

