-- ==== Sys2Proof/Machine/Iter.lean ====
section
/-! DEFINITION. The pseudo-instruction `ITER n, seed` (30_encoding.md R63): the caller's feedback chain, at the transaction
level and as a cycle stimulus. -/

namespace Sys2Proof.Machine

/-- The seeds of the chain: each later one is the result of the one before it (30_encoding.md R63). -/
def iterSeeds : Nat → Word → List Word
  | 0, _ => []
  | n + 1, seed => seed :: iterSeeds n (xorshift32 seed)

/-- The results of the chain, `xorshift32^1(seed)` to `xorshift32^n(seed)` (30_encoding.md R63). -/
def iterResults : Nat → Word → List Word
  | 0, _ => []
  | n + 1, seed => xorshift32 seed :: iterResults n (xorshift32 seed)

/-- A row that offers one literal seed and takes any result. -/
def Row.offer (seed : Word) : Row :=
  { rst := false, inValid := .level true, inData := .word seed, outReady := .level true }

/-- The feedback row: `in_valid = out_valid`, `in_data = out_data`, `out_ready = 1` (70_reset_and_hazards.md R136). -/
def Row.feedback : Row :=
  { rst := false, inValid := .signal .outValid, inData := .outData, outReady := .level true }

/-- A row that offers nothing and takes any result. -/
def Row.drain : Row :=
  { rst := false, inValid := .level false, inData := .dash, outReady := .level true }

/-- `ITER n, seed` as a stimulus for an empty pipeline: offer the seed, feed each result back in the cycle in which it is
offered (70_reset_and_hazards.md R136), and take the last result without feeding it back (log 25). -/
def iterStimulus (n : Nat) (seed : Word) : List Row :=
  Row.offer seed :: (List.replicate (3 * n - 1) Row.feedback ++ [Row.drain])

/-- One line of a caller's script (30_encoding.md R62, R63). -/
inductive ScriptLine where
  | next (seed : Word)
  | iter (n : Nat) (seed : Word)
deriving DecidableEq, Repr

/-- The `NEXT` transactions a script line expands to (30_encoding.md R63). -/
def ScriptLine.expand : ScriptLine → List Instr
  | .next seed => [.next seed]
  | .iter n seed => (iterSeeds n seed).map .next

/-- The check of a script line: `ITER` needs `n >= 1` (30_encoding.md R63). -/
def ScriptLine.wellFormed : ScriptLine → Bool
  | .next _ => true
  | .iter n _ => wellFormedIterCount n

end Sys2Proof.Machine
end

