-- ==== Sys2Proof/Machine/Asm.lean ====
section
/-! DEFINITION. The script notation of 30_encoding.md R62 and R63, read from a list of characters (log 23). -/

namespace Sys2Proof.Machine

/-- The value of a decimal digit. -/
def decDigit (c : Char) : Option Nat :=
  if 48 ≤ c.toNat ∧ c.toNat ≤ 57 then some (c.toNat - 48) else none

/-- The value of a hexadecimal digit, in either case. -/
def hexDigit (c : Char) : Option Nat :=
  if 48 ≤ c.toNat ∧ c.toNat ≤ 57 then some (c.toNat - 48)
  else if 97 ≤ c.toNat ∧ c.toNat ≤ 102 then some (c.toNat - 87)
  else if 65 ≤ c.toNat ∧ c.toNat ≤ 70 then some (c.toNat - 55)
  else none

/-- The number written by digits, most significant first, after the value `acc` of the digits before them. -/
def digitsValue (base : Nat) (digit : Char → Option Nat) (acc : Nat) : List Char → Option Nat
  | [] => some acc
  | c :: cs =>
    match digit c with
    | some v => digitsValue base digit (acc * base + v) cs
    | none => none

/-- An unsigned decimal number, at least one digit. -/
def parseDecimal (cs : List Char) : Option Nat :=
  if cs = [] then none else digitsValue 10 decDigit 0 cs

/-- `imm32`: `0x` and 1 to 8 hex digits, or unsigned decimal, in 0..4294967295 (30_encoding.md R62). -/
def parseImm32 (cs : List Char) : Option Word :=
  let value :=
    match cs with
    | '0' :: 'x' :: hs => if 1 ≤ hs.length ∧ hs.length ≤ 8 then digitsValue 16 hexDigit 0 hs else none
    | _ => parseDecimal cs
  match value with
  | some n => if n < 2 ^ 32 then some (BitVec.ofNat 32 n) else none
  | none => none

/-- One script line: `NEXT imm32` (30_encoding.md R62) or `ITER n, imm32` with `n >= 1` (30_encoding.md R63). The stage
operations never appear in a caller's script (30_encoding.md R62). -/
def parseLine (cs : List Char) : Option ScriptLine :=
  match cs with
  | 'N' :: 'E' :: 'X' :: 'T' :: ' ' :: rest => (parseImm32 rest).map .next
  | 'I' :: 'T' :: 'E' :: 'R' :: ' ' :: rest =>
    match rest.dropWhile (· ≠ ',') with
    | ',' :: ' ' :: imm =>
      match parseDecimal (rest.takeWhile (· ≠ ',')), parseImm32 imm with
      | some n, some seed => if wellFormedIterCount n then some (.iter n seed) else none
      | _, _ => none
    | _ => none
  | _ => none

end Sys2Proof.Machine
end

