-- ==== Sys2Proof/Safety.lean ====
section
/-! DEFINITION. The terms the statements use: runs, what a caller observes, what is in flight, the invariant. -/

namespace Sys2Proof.Machine

/-- `n` steps, stopping at the first fault or refusal. -/
def run : Nat → State → Host.Outcome State Fault Refusal
  | 0, s => .next s
  | n + 1, s =>
    match step s with
    | .next t => run n t
    | .fault r => .fault r
    | .refused r => .refused r

/-- What a caller observes in one cycle: `out_data` only while `out_valid = 1` (42_pipeline_protocol.md R110). -/
structure Observation where
  inReady : Bool
  outValid : Bool
  outData : Option Word
deriving DecidableEq, Repr

/-- The observation of the current cycle. -/
def State.observe (s : State) : Observation :=
  { inReady := s.inReady s.inputs.rst s.inputs.outReady
    outValid := s.outValid s.inputs.rst
    outData := if s.outValid s.inputs.rst then some (s.outData s.inputs.rst) else none }

/-- How many transactions are in flight (42_pipeline_protocol.md R96). -/
def State.inFlight (s : State) : Nat :=
  s.s1_v.toNat + s.s2_v.toNat + s.s3_v.toNat

/-- The results that the stages will deliver, the oldest first. -/
def State.pendingResults (s : State) : List Word :=
  (if s.s3_v then [s.s3_d] else []) ++
  (if s.s2_v then [xsl15 s.s2_d] else []) ++
  (if s.s1_v then [xsl15 (xsr17 s.s1_d)] else [])

/-- The seeds of the transactions in flight, the oldest first, read back from the stage registers through the inverses of
40_shift_xor_steps.md R72. -/
def State.seedsInFlight (s : State) : List Word :=
  (if s.s3_v then [xorshift32Inv s.s3_d] else []) ++
  (if s.s2_v then [xsl13Inv (xsr17Inv s.s2_d)] else []) ++
  (if s.s1_v then [xsl13Inv s.s1_d] else [])

/-- The machine's invariant: no datapath listing is running, and the results delivered and still to be delivered since the
last reset edge are the transforms of the seeds accepted since then, in order (10_state.md R22, 20_memory.md R43,
42_pipeline_protocol.md R105). -/
def State.Inv (s : State) : Prop :=
  s.listing = [] ∧ s.delivered ++ s.pendingResults = s.accepted.map xorshift32

/-- A row whose caller uses `out_data` only while `out_valid = 1` (70_reset_and_hazards.md R138(a)): while `out_valid = 0`, and so
`in_ready = NOT rst`, no two words on `out_data` make it drive anything different that matters. `in_data` matters only with
`in_valid = 1` (20_memory.md R40). -/
def Row.usesOutDataLawfully (r : Row) : Prop :=
  ∀ (a b : Word) (n : Nat),
    r.outReadyWith false a = r.outReadyWith false b ∧
    r.inValidWith (!r.rst) false a = r.inValidWith (!r.rst) false b ∧
    (r.inValidWith (!r.rst) false a = true → r.inDataWith (!r.rst) false a n = r.inDataWith (!r.rst) false b n)

/-- A row whose caller takes any result offered in its cycle. -/
def Row.takesResults (r : Row) : Prop :=
  ∀ w : Word, r.outReadyWith true w = true

/-- Two states that agree on the valid bits, on the data of the valid stages, on the history and on what the caller drives;
the data registers of invalid stages may differ (10_state.md R22). -/
def State.AgreeOnValid (s t : State) : Prop :=
  s.s1_v = t.s1_v ∧ s.s2_v = t.s2_v ∧ s.s3_v = t.s3_v ∧
  (s.s1_v = true → s.s1_d = t.s1_d) ∧
  (s.s2_v = true → s.s2_d = t.s2_d) ∧
  (s.s3_v = true → s.s3_d = t.s3_d) ∧
  s.accepted = t.accepted ∧ s.delivered = t.delivered ∧
  s.stimulus = t.stimulus ∧ s.listing = t.listing ∧ s.drawIndex = t.drawIndex

/-- How many of the next `n` cycles end in an advancing edge (42_pipeline_protocol.md R97), or `none` if one of them ends in a
reset edge or does not run. -/
def advancesIn : Nat → State → Option Nat
  | 0, _ => some 0
  | n + 1, s =>
    if s.inputs.rst then none
    else
      match step s with
      | .next t =>
        match advancesIn n t with
        | some k => some (k + (s.adv s.inputs.outReady).toNat)
        | none => none
      | .fault _ => none
      | .refused _ => none

/-- The non-conforming transform whose step 2 sign-extends (41_next_transform.md R86(a)). -/
def signExtendingVariant (x : Word) : Word :=
  let a := xsl13 x
  xsl15 (a ^^^ a.sshiftRight 17)

/-- The non-conforming transform that keeps a wider intermediate and masks only at the end (41_next_transform.md R86(b)). -/
def wideIntermediateVariant (x : Word) : Word :=
  let a := x.toNat ^^^ (x.toNat <<< 13)
  let b := a ^^^ (a >>> 17)
  BitVec.ofNat 32 (b ^^^ (b <<< 15))

/-- The period of every nonzero chain, 2^32 - 1 (41_next_transform.md R90). -/
def fullPeriod : Nat := 4294967295

end Sys2Proof.Machine
end

