-- ==== Sys2Proof/Certificates/Slice0/Obligations.lean ====
section
/-! DEFINITION. The statements for the provers. -/

open Sys2Proof Sys2Proof.Machine

/- Encoding -/

/-- 30_encoding.md R58: every port word is a `NEXT` operand, whatever its value; no state stops it, and the zero
word's result is zero. -/
def Obligations.EveryPortWordIsALegalNext : Prop :=
  (∀ w : Word, decode (.port w) = .ok (.next w)) ∧
  (∀ (w : Word) (s : State), ∃ t, exec (.next w) s = .next t) ∧
  xorshift32 0x00000000#32 = 0x00000000#32

/-- 30_encoding.md R57: the three descriptors, field by field, decode in their stages to the three operations, and each
names the shift-xor of its own direction and amount. -/
def Obligations.StageDescriptorsNameTheirShifts : Prop :=
  (decode (.desc .s1 0b001101#6) = .ok .xsl13 ∧
    Descriptor.dir 0b001101#6 = .left ∧ Descriptor.amt 0b001101#6 = 13) ∧
  (decode (.desc .s2 0b110001#6) = .ok .xsr17 ∧
    Descriptor.dir 0b110001#6 = .right ∧ Descriptor.amt 0b110001#6 = 17) ∧
  (decode (.desc .s3 0b001111#6) = .ok .xsl15 ∧
    Descriptor.dir 0b001111#6 = .left ∧ Descriptor.amt 0b001111#6 = 15) ∧
  (∀ (k : Stage) (d : Descriptor) (i : Instr) (x : Word), decode (.desc k d) = .ok i →
    stageOp k x = shiftXor d.dir d.amt x)

/-- Decoding and encoding agree in both directions: a code word decodes to an operation exactly if it is that operation's
encoding, so no word has two meanings and every other word is refused. -/
def Obligations.DecodeAcceptsExactlyTheEncodings : Prop :=
  ∀ (c : CodeWord) (i : Instr), decode c = .ok i ↔ c = encode i

/-- What the decoders refuse (30_encoding.md R59): a descriptor decodes only as 0x0D in stage 1, 0x31 in stage 2 and 0x0F in stage 3;
the other 61 values name no operation; a whole listing decodes only as those three in that order. The last clause is about a step,
which runs a listing by the model's choice (log 10): it takes the turn from the count of descriptors left, so the ends
[0x31, 0x0F] and [0x0F] of a listing do run; it refuses any other descriptor in a turn, and more than three descriptors. -/
def Obligations.ReservedDescriptorsAreRefused : Prop :=
  (∀ (k : Stage) (d : Descriptor), (∃ i, decode (.desc k d) = .ok i) ↔
    (k = .s1 ∧ d = 0x0D#6) ∨ (k = .s2 ∧ d = 0x31#6) ∨ (k = .s3 ∧ d = 0x0F#6)) ∧
  ((List.range 64).filter (fun n => (descRow (BitVec.ofNat 6 n)).isNone)).length = 61 ∧
  (∀ (ds : List Descriptor) (is : List Instr), decodeListing ds = .ok is ↔
    ds = [0x0D#6, 0x31#6, 0x0F#6] ∧ is = [.xsl13, .xsr17, .xsl15]) ∧
  (∀ (s : State) (d : Descriptor) (ds : List Descriptor), s.listing = d :: ds →
    ¬ (ds.length = 2 ∧ d = 0x0D#6) → ¬ (ds.length = 1 ∧ d = 0x31#6) → ¬ (ds.length = 0 ∧ d = 0x0F#6) →
    ∃ r, step s = .refused r)

/-- A step runs the decoded operation. With no listing, the port word offered in the current cycle is decoded and executed in
that state. With a listing, the next descriptor is decoded in the stage whose turn it is, taken off the listing, and executed;
that a listing runs as steps, before the clock cycle and with its turn by what is left, is the model's choice (log 10).
With no listing and nothing offered, the clock cycle runs alone. -/
def Obligations.StepRunsTheDecodedOperation : Prop :=
  (∀ (s : State) (i : Instr), s.listing = [] → s.inputs.inValid = true →
    decode (.port s.inputs.inData) = .ok i → step s = exec i s) ∧
  (∀ (s : State) (d : Descriptor) (ds : List Descriptor) (k : Stage) (i : Instr), s.listing = d :: ds →
    stageWithRemaining (ds.length + 1) = some k → decode (.desc k d) = .ok i →
    step s = exec i { s with listing := ds }) ∧
  (∀ s : State, s.listing = [] → s.inputs.inValid = false → step s = .next (s.clockCycle s.inputs))

/-- An opcode-table word that decodes is what the next step runs once it is placed, from every state. How a word is placed is the
model's choice (log 13, log 14). -/
def Obligations.PlacedTableWordRunsNext : Prop :=
  ∀ (s : State) (nbits w : Nat) (i : Instr), decodeTableWord nbits w = some i →
    step (s.withFetchWord nbits w) = exec i (s.withFetchWord nbits w).afterFetch

/-- 60_exceptions.md R111: no operation raises an exception for any operand, no step faults, and every clock cycle has a next
state. -/
def Obligations.NoOperationOrCycleStops : Prop :=
  (∀ (i : Instr) (s : State), ∃ t, exec i s = .next t) ∧
  (∀ (s : State) (r : Fault), step s ≠ .fault r) ∧
  (∀ s : State, s.listing = [] → ∃ t, step s = .next t)

/- The stage operations -/

/-- `XSL13` alone (40_shift_xor_steps.md R66, and R75 for what it leaves unchanged). It loads `s1_d` from `in_data` and changes
nothing else. That an operation runs alone is log 10, and that it computes from `in_data` whatever `in_valid`, `rst` and
`out_ready` are, where R66 says at accept and R75 calls an invalid result unspecified, is log 12: the model's choices. The number,
the bit equations, the encoding and the corner cases are R66's. -/
def Obligations.Xsl13LoadsStageOne : Prop :=
  (∀ s : State, exec .xsl13 s = .next { s with s1_d := xsl13 s.inputs.inData }) ∧
  encode .xsl13 = .desc .s1 0x0D#6 ∧
  (∀ x : Word, (xsl13 x).toNat = (x.toNat ^^^ (x.toNat * 2 ^ 13)) % 2 ^ 32) ∧
  (∀ (x : Word) (i : Nat), i ≤ 12 → (xsl13 x).getLsbD i = x.getLsbD i) ∧
  (∀ (x : Word) (i : Nat), 13 ≤ i → i ≤ 31 →
    (xsl13 x).getLsbD i = (x.getLsbD i ^^ x.getLsbD (i - 13))) ∧
  xsl13 0#32 = 0#32 ∧ xsl13 0x80000000#32 = 0x80000000#32 ∧ xsl13 0xFFFFFFFF#32 = 0x00001FFF#32 ∧
  xsl13 0x0007FFFF#32 = 0xFFF81FFF#32 ∧ xsl13 0x00000001#32 = 0x00002001#32 ∧
  (∀ x y : Word, (∀ i, i ≤ 18 → x.getLsbD i = y.getLsbD i) → x <<< 13 = y <<< 13) ∧
  0x80000000 ^^^ (0x80000000 * 2 ^ 13) = 0x100080000000

/-- `XSR17` alone (40_shift_xor_steps.md R67, and R75 for what it leaves unchanged). It loads `s2_d` from `s1_d` with a zero-filled
right shift and changes nothing else. That an operation runs alone is log 10, and that it computes from `s1_d` with `s1_v = 0` too,
where R75 and 42_pipeline_protocol.md R98 leave the result unspecified, is log 12: the model's choices. -/
def Obligations.Xsr17LoadsStageTwo : Prop :=
  (∀ s : State, exec .xsr17 s = .next { s with s2_d := xsr17 s.s1_d }) ∧
  encode .xsr17 = .desc .s2 0x31#6 ∧
  (∀ x : Word, (xsr17 x).toNat = x.toNat ^^^ (x.toNat / 2 ^ 17)) ∧
  (∀ (x : Word) (i : Nat), i ≤ 14 → (xsr17 x).getLsbD i = (x.getLsbD i ^^ x.getLsbD (i + 17))) ∧
  (∀ (x : Word) (i : Nat), 15 ≤ i → i ≤ 31 → (xsr17 x).getLsbD i = x.getLsbD i) ∧
  (∀ (x : Word) (i : Nat), 15 ≤ i → (x >>> 17).getLsbD i = false) ∧
  (∀ x : Word, x.toNat < 2 ^ 17 → xsr17 x = x) ∧
  (0x80000000#32 ^^^ (0x80000000#32).sshiftRight 17) = 0x7FFFC000#32 ∧
  (0xFFFFFFFF#32 ^^^ (0xFFFFFFFF#32).sshiftRight 17) = 0x00000000#32 ∧
  xsr17 0#32 = 0#32 ∧ xsr17 0x80000000#32 = 0x80004000#32 ∧ xsr17 0xFFFFFFFF#32 = 0xFFFF8000#32

/-- `XSL15` alone (40_shift_xor_steps.md R68, and R75 for what it leaves unchanged). It loads `s3_d` from `s2_d` and changes nothing
else, and the word it loads is the one `out_data` shows while `out_valid = 1`. That an operation runs alone is log 10, and that it
computes from `s2_d` with `s2_v = 0` too, where R75 and 42_pipeline_protocol.md R98 leave the result unspecified, is log 12: the
model's choices. -/
def Obligations.Xsl15LoadsStageThree : Prop :=
  (∀ s : State, exec .xsl15 s = .next { s with s3_d := xsl15 s.s2_d }) ∧
  (∀ (s t : State) (rst : Bool), exec .xsl15 s = .next t → t.outValid rst = true →
    t.outData rst = xsl15 s.s2_d) ∧
  encode .xsl15 = .desc .s3 0x0F#6 ∧
  (∀ x : Word, (xsl15 x).toNat = (x.toNat ^^^ (x.toNat * 2 ^ 15)) % 2 ^ 32) ∧
  (∀ (x : Word) (i : Nat), i ≤ 14 → (xsl15 x).getLsbD i = x.getLsbD i) ∧
  (∀ (x : Word) (i : Nat), 15 ≤ i → i ≤ 31 →
    (xsl15 x).getLsbD i = (x.getLsbD i ^^ x.getLsbD (i - 15))) ∧
  xsl15 0#32 = 0#32 ∧ xsl15 0x00020000#32 = 0x00020000#32 ∧ xsl15 0x80000000#32 = 0x80000000#32 ∧
  xsl15 0xFFFFFFFF#32 = 0x00007FFF#32 ∧ xsl15 0x00010000#32 = 0x80010000#32 ∧
  xsl15 0x00002001#32 = 0x1000A001#32

/-- 40_shift_xor_steps.md R69: at every advancing edge each valid word goes through the operation of the stage it enters, and that
is what the stage's operation does alone. -/
def Obligations.AdvancingEdgeRunsEachStageOperation : Prop :=
  ∀ s : State, s.listing = [] → s.inputs.rst = false → (s.s3_v = false ∨ s.inputs.outReady = true) →
    ∃ t u1 u2 u3, step s = .next t ∧
      exec .xsl13 s = .next u1 ∧ exec .xsr17 s = .next u2 ∧ exec .xsl15 s = .next u3 ∧
      t.s1_v = s.inputs.inValid ∧ t.s2_v = s.s1_v ∧ t.s3_v = s.s2_v ∧
      (s.inputs.inValid = true → t.s1_d = u1.s1_d) ∧
      (s.s1_v = true → t.s2_d = u2.s2_d) ∧
      (s.s2_v = true → t.s3_d = u3.s3_d)

/-- A datapath listing carries the word on `in_data` through the three stages and leaves its transform in `s3_d`; the valid bits, the
history and the caller's rows do not change. That a listing runs as steps is the model's choice (log 10), and that its
operations compute whether or not their words are valid is log 12. -/
def Obligations.DatapathListingComputesTheTransform : Prop :=
  ∀ s : State, s.listing = [0x0D#6, 0x31#6, 0x0F#6] →
    run 3 s = .next { s with
      listing := []
      s1_d := xsl13 s.inputs.inData
      s2_d := xsr17 (xsl13 s.inputs.inData)
      s3_d := xorshift32 s.inputs.inData }

/-- 40_shift_xor_steps.md R73: each stage operation gives 0 for 0 and for nothing else. -/
def Obligations.StageOperationsAreZeroOnlyAtZero : Prop :=
  ∀ (k : Stage) (x : Word), stageOp k x = 0#32 ↔ x = 0#32

/-- 40_shift_xor_steps.md R71: each stage operation is linear over GF(2). -/
def Obligations.StageOperationsAreLinear : Prop :=
  ∀ (k : Stage) (a b : Word), stageOp k (a ^^^ b) = stageOp k a ^^^ stageOp k b

/-- 40_shift_xor_steps.md R72: each stage operation is a bijection, with the inverse the rule gives. -/
def Obligations.StageOperationsAreInvertible : Prop :=
  (∀ k : Stage, Function.Bijective (stageOp k)) ∧
  (∀ x y : Word, xsl13 x = y ↔ x = y ^^^ (y <<< 13) ^^^ (y <<< 26)) ∧
  (∀ x y : Word, xsr17 x = y ↔ x = y ^^^ (y >>> 17)) ∧
  (∀ x y : Word, xsl15 x = y ↔ x = y ^^^ (y <<< 15) ^^^ (y <<< 30))

/- The transform -/

/-- 41_next_transform.md R77: the transform as arithmetic on numbers, reduced modulo 2^32 at every step. -/
def Obligations.TransformIsTheSourceFunction : Prop :=
  (∀ x : Word,
    let a := (x.toNat ^^^ (x.toNat * 2 ^ 13)) % 2 ^ 32
    let b := a ^^^ (a / 2 ^ 17)
    let c := (b ^^^ (b * 2 ^ 15)) % 2 ^ 32
    (xorshift32 x).toNat = c) ∧
  xorshift32 = xsl15 ∘ xsr17 ∘ xsl13

/-- Every vector of 95_test_vectors.md section 3: the 17 seeds with their intermediate words, the three chains, the five inverses, and
the six rows of negative vectors, with the result of a sign-extending step 2 and of a wide intermediate masked only at the end. -/
def Obligations.TransformMeetsEveryVector : Prop :=
  (∀ v ∈ ([
      (0x00000000#32, 0x00000000#32, 0x00000000#32, 0x00000000#32),
      (0x00000001#32, 0x00002001#32, 0x00002001#32, 0x1000A001#32),
      (0x00000002#32, 0x00004002#32, 0x00004002#32, 0x20014002#32),
      (0x00000003#32, 0x00006003#32, 0x00006003#32, 0x3001E003#32),
      (0x00002000#32, 0x04002000#32, 0x04002200#32, 0x15002200#32),
      (0x00003039#32, 0x06071039#32, 0x0607133A#32, 0x8F9A133A#32),
      (0x00008000#32, 0x10008000#32, 0x10008800#32, 0x54008800#32),
      (0x00020000#32, 0x40020000#32, 0x40022001#32, 0x5002A001#32),
      (0x1000A001#32, 0x04008001#32, 0x04008201#32, 0x45000201#32),
      (0x40000000#32, 0x40000000#32, 0x40002000#32, 0x50002000#32),
      (0x7FFFFFFF#32, 0x80001FFF#32, 0x80005FFF#32, 0xAFFFDFFF#32),
      (0x80000000#32, 0x80000000#32, 0x80004000#32, 0xA0004000#32),
      (0x80000001#32, 0x80002001#32, 0x80006001#32, 0xB000E001#32),
      (0x92D68CA2#32, 0x4342CCA2#32, 0x4342ED03#32, 0x35C36D03#32),
      (0xC0000000#32, 0xC0000000#32, 0xC0006000#32, 0xF0006000#32),
      (0xDEADBEEF#32, 0x69705EEF#32, 0x69706A57#32, 0x5C5BEA57#32),
      (0xFFFFFFFF#32, 0x00001FFF#32, 0x00001FFF#32, 0x0FFF9FFF#32)] :
      List (Word × Word × Word × Word)),
    xsl13 v.1 = v.2.1 ∧ xsr17 v.2.1 = v.2.2.1 ∧ xsl15 v.2.2.1 = v.2.2.2 ∧ xorshift32 v.1 = v.2.2.2) ∧
  iterResults 10 0x00000001#32 =
    [0x1000A001#32, 0x45000201#32, 0x451080A1#32, 0x10150A23#32, 0x2814B28B#32,
     0x78910DA9#32, 0x59B9813B#32, 0x0364D5F4#32, 0x95569919#32, 0x8B641A23#32] ∧
  iterResults 5 0x00003039#32 =
    [0x8F9A133A#32, 0x571F35C4#32, 0x472C6D17#32, 0xBEA6E850#32, 0x0F6FD986#32] ∧
  iterResults 3 0x00000000#32 = [0x00000000#32, 0x00000000#32, 0x00000000#32] ∧
  (∀ v ∈ ([(0x1000A001#32, 0x00000001#32), (0x00000001#32, 0x50008001#32), (0xA0004000#32, 0x80000000#32),
      (0x80000000#32, 0x88004000#32), (0xFFFFFFFF#32, 0x3FFFFFFF#32)] : List (Word × Word)),
    xorshift32Inv v.1 = v.2) ∧
  (∀ v ∈ ([
      (0x00000001#32, 0x1000A001#32, 0x1000A001#32, 0x1000A001#32),
      (0x00003039#32, 0x8F9A133A#32, 0x8F9A133A#32, 0x8F9A133A#32),
      (0x7FFFFFFF#32, 0xAFFFDFFF#32, 0x90005FFF#32, 0x68005FFF#32),
      (0x80000000#32, 0xA0004000#32, 0x9FFFC000#32, 0xA8004000#32),
      (0xFFFFFFFF#32, 0x0FFF9FFF#32, 0x0FFF9FFF#32, 0xC0001FFF#32),
      (0xDEADBEEF#32, 0x5C5BEA57#32, 0x5C5BEA57#32, 0x11B16A57#32)] :
      List (Word × Word × Word × Word)),
    xorshift32 v.1 = v.2.1 ∧
    signExtendingVariant v.1 = v.2.2.1 ∧ wideIntermediateVariant v.1 = v.2.2.2)

/-- The right shift of step 2 zero-fills (41_next_transform.md R84). An implementation that sign-extends it gives another result
exactly for the seeds whose stage-1 word has bit 31 set; the sharper condition is the model's reading (log 21). -/
def Obligations.SignExtendingShiftIsRejected : Prop :=
  (∀ x : Word, signExtendingVariant x = xorshift32 x ↔
    (xsl13 x).getLsbD 31 = false) ∧
  xorshift32 0x80000000#32 = 0xA0004000#32 ∧
  signExtendingVariant 0x80000000#32 = 0x9FFFC000#32

/-- 41_next_transform.md R87: the transform is a bijection, with the inverse the rule gives. -/
def Obligations.TransformIsBijective : Prop :=
  Function.Bijective xorshift32 ∧
  (∀ x y : Word, xorshift32 x = y ↔ x = xsl13Inv (xsr17Inv (xsl15Inv y))) ∧
  xorshift32Inv 0x1000A001#32 = 0x00000001#32 ∧ xorshift32Inv 0x00000001#32 = 0x50008001#32

/-- 41_next_transform.md R89: the transform is linear, the product with a fixed matrix over GF(2) whose columns are its values on the
one-bit words, and that matrix is invertible. -/
def Obligations.TransformIsAnInvertibleMatrix : Prop :=
  (∀ a b : Word, xorshift32 (a ^^^ b) = xorshift32 a ^^^ xorshift32 b) ∧
  (∀ x : Word, xorshift32 x =
    (List.range 32).foldl (fun acc i => if x.getLsbD i then acc ^^^ xorshift32 (1#32 <<< i) else acc) 0#32) ∧
  Function.Bijective xorshift32

/-- 41_next_transform.md R88: zero comes from zero only, so a chain from a nonzero seed never reaches 0. -/
def Obligations.NonzeroChainNeverReachesZero : Prop :=
  (∀ x : Word, xorshift32 x = 0#32 ↔ x = 0#32) ∧
  (∀ (x : Word) (n : Nat), x ≠ 0#32 → xorshift32^[n] x ≠ 0#32)

/-- 41_next_transform.md R90: the matrix has order 2^32 - 1, every nonzero chain has exactly that period, and it visits every nonzero
word once per period. -/
def Obligations.NonzeroChainHasFullPeriod : Prop :=
  (∀ x : Word, xorshift32^[fullPeriod] x = x) ∧
  (∀ p ∈ [3, 5, 17, 257, 65537], ∃ x : Word, xorshift32^[fullPeriod / p] x ≠ x) ∧
  (∀ (x : Word) (n : Nat), x ≠ 0#32 → (xorshift32^[n] x = x ↔ fullPeriod ∣ n)) ∧
  (∀ x y : Word, x ≠ 0#32 → y ≠ 0#32 → ∃! n, n < fullPeriod ∧ xorshift32^[n] x = y)

/-- The words of `ITER n, seed` (30_encoding.md R63): there are n of each, seed j is `xorshift32^j(seed)` and result j is
`xorshift32^(j+1)(seed)`, counting from 0, and the script line expands to the `NEXT` transactions of those seeds. -/
def Obligations.IterExpandsToTheChain : Prop :=
  ∀ (n : Nat) (seed : Word),
    (iterSeeds n seed).length = n ∧ (iterResults n seed).length = n ∧
    (∀ j, j < n → (iterSeeds n seed)[j]? = some (xorshift32^[j] seed)) ∧
    (∀ j, j < n → (iterResults n seed)[j]? = some (xorshift32^[j + 1] seed)) ∧
    (ScriptLine.iter n seed).expand = (iterSeeds n seed).map Instr.next ∧
    wellFormedScript (ScriptLine.iter n seed).expand = true

/- The cycle -/

/-- `NEXT` completes (41_next_transform.md R78, 42_pipeline_protocol.md R98, R99): with `rst = 0` and the pipeline advancing,
the seed enters stage 1 as `XSL13(seed)`, the valid stages move on, a valid result in stage 3 is delivered, and nothing else
changes but the row and the index of the free values. -/
def Obligations.NextIsAcceptedWhenThePipelineAdvances : Prop :=
  ∀ (s : State) (seed : Word), s.inputs.rst = false → (s.s3_v = false ∨ s.inputs.outReady = true) →
    ∃ t, exec (.next seed) s = .next t ∧
      t.s1_v = true ∧ t.s1_d = xsl13 seed ∧
      t.s2_v = s.s1_v ∧ (s.s1_v = true → t.s2_d = xsr17 s.s1_d) ∧
      t.s3_v = s.s2_v ∧ (s.s2_v = true → t.s3_d = xsl15 s.s2_d) ∧
      t.accepted = s.accepted ++ [seed] ∧
      t.delivered = s.delivered ++ (if s.s3_v ∧ s.inputs.outReady then [s.s3_d] else []) ∧
      t.stimulus = s.stimulus.tail ∧ t.listing = s.listing

/-- 42_pipeline_protocol.md R98: the edge update in its three cases, for every clock cycle. -/
def Obligations.EdgeUpdateMovesEachWordOneStage : Prop :=
  ∀ s : State, s.listing = [] → ∃ t, step s = .next t ∧
    (s.inputs.rst = true → t.s1_v = false ∧ t.s2_v = false ∧ t.s3_v = false) ∧
    (s.inputs.rst = false → (s.s3_v = false ∨ s.inputs.outReady = true) →
      t.s1_v = s.inputs.inValid ∧ (s.inputs.inValid = true → t.s1_d = xsl13 s.inputs.inData) ∧
      t.s2_v = s.s1_v ∧ (s.s1_v = true → t.s2_d = xsr17 s.s1_d) ∧
      t.s3_v = s.s2_v ∧ (s.s2_v = true → t.s3_d = xsl15 s.s2_d)) ∧
    (s.inputs.rst = false → s.s3_v = true → s.inputs.outReady = false →
      t.s1_v = s.s1_v ∧ t.s1_d = s.s1_d ∧ t.s2_v = s.s2_v ∧ t.s2_d = s.s2_d ∧
      t.s3_v = s.s3_v ∧ t.s3_d = s.s3_d)

/-- 42_pipeline_protocol.md R94 and R95: `in_ready` and `out_valid` as the rules give them, `out_data` is `s3_d` while
`out_valid = 1`, no output changes with what the caller offers, and `out_valid` and `out_data` do not change with
`out_ready`. -/
def Obligations.OutputPortsFollowTheRegisters : Prop :=
  (∀ s : State,
    s.observe.inReady = (!s.inputs.rst && (!s.s3_v || s.inputs.outReady)) ∧
    s.observe.outValid = (s.s3_v && !s.inputs.rst) ∧
    (s.observe.outValid = true → s.observe.outData = some s.s3_d)) ∧
  (∀ (s : State) (r : Row) (rest : List Row) (v : BitDrive OfferSignal) (d : DataDrive),
    State.observe { s with stimulus := { r with inValid := v, inData := d } :: rest } =
      State.observe { s with stimulus := r :: rest }) ∧
  (∀ (s : State) (r : Row) (rest : List Row) (o : BitDrive ReadySignal),
    (State.observe { s with stimulus := { r with outReady := o } :: rest }).outValid =
      (State.observe { s with stimulus := r :: rest }).outValid ∧
    (State.observe { s with stimulus := { r with outReady := o } :: rest }).outData =
      (State.observe { s with stimulus := r :: rest }).outData)

/-- 42_pipeline_protocol.md R99: a seed is accepted at the edge exactly if `in_valid = 1` and `in_ready = 1`; it is then in stage 1; a
seed that is not accepted leaves no trace; and `in_ready = 1` implies `rst = 0` and `adv = 1`. -/
def Obligations.AcceptHappensExactlyAtTheHandshake : Prop :=
  (∀ (s : State) (w : Word), s.accept s.inputs = some w ↔
    s.inputs.inValid = true ∧ s.observe.inReady = true ∧ s.inputs.inData = w) ∧
  (∀ (s : State) (w : Word), s.listing = [] → s.accept s.inputs = some w →
    ∃ t, step s = .next t ∧ t.accepted = s.accepted ++ [w] ∧ t.s1_v = true ∧ t.s1_d = xsl13 w) ∧
  (∀ s : State, s.listing = [] → s.accept s.inputs = none → s.inputs.rst = false →
    ∃ t, step s = .next t ∧ t.accepted = s.accepted) ∧
  (∀ (s : State) (a : Word), s.observe.inReady = false →
    exec (.next a) s = .next (s.clockCycle { s.inputs with inValid := false, inData := 0#32 })) ∧
  (∀ s : State, s.observe.inReady = true → s.inputs.rst = false ∧ s.adv s.inputs.outReady = true)

/-- 42_pipeline_protocol.md R100: a result is delivered at the edge exactly if `out_valid = 1` and `out_ready = 1`; both together imply
`rst = 0` and `adv = 1`, and stage 3 is refilled from stage 2 or emptied at that edge. -/
def Obligations.DeliverHappensExactlyAtTheHandshake : Prop :=
  (∀ (s : State) (r : Word), s.deliver s.inputs = some r ↔
    s.observe.outValid = true ∧ s.inputs.outReady = true ∧ s.observe.outData = some r) ∧
  (∀ (s : State) (r : Word), s.listing = [] → s.deliver s.inputs = some r →
    s.inputs.rst = false ∧ s.adv s.inputs.outReady = true ∧
    ∃ t, step s = .next t ∧ t.delivered = s.delivered ++ [r] ∧
      t.s3_v = s.s2_v ∧ (s.s2_v = true → t.s3_d = xsl15 s.s2_d)) ∧
  (∀ s : State, s.listing = [] → s.deliver s.inputs = none → s.inputs.rst = false →
    ∃ t, step s = .next t ∧ t.delivered = s.delivered)

/-- 42_pipeline_protocol.md R101: through any number of consecutive stall cycles all six registers and the history keep their values, and
in each such cycle `in_ready = 0` and the same result is offered. -/
def Obligations.StallHoldsEveryRegister : Prop :=
  ∀ (rows rest : List Row) (s : State), s.listing = [] → s.s3_v = true → s.stimulus = rows ++ rest →
    (∀ r ∈ rows, r.rst = false ∧ r.outReadyWith true s.s3_d = false) →
    (rows ≠ [] → s.observe = { inReady := false, outValid := true, outData := some s.s3_d }) ∧
    ∃ t, run rows.length s = .next t ∧
      t.s1_v = s.s1_v ∧ t.s1_d = s.s1_d ∧ t.s2_v = s.s2_v ∧ t.s2_d = s.s2_d ∧
      t.s3_v = s.s3_v ∧ t.s3_d = s.s3_d ∧
      t.accepted = s.accepted ∧ t.delivered = s.delivered ∧ t.stimulus = rest ∧ t.listing = []

/- Reset -/

/-- 70_reset_and_hazards.md R127: a reset edge from any state, the state before the first reset edge included, clears the valid bits,
so nothing is in flight after it. -/
def Obligations.ResetEdgeClearsTheValidBits : Prop :=
  ∀ s : State, s.listing = [] → s.inputs.rst = true →
    ∃ t, step s = .next t ∧ t.s1_v = false ∧ t.s2_v = false ∧ t.s3_v = false ∧
      t.seedsInFlight = [] ∧ t.pendingResults = []

/-- A reset edge restarts the recorded history (70_reset_and_hazards.md R140 asks it of the caller's count; that the model's record
restarts too is log 8), and the rows the caller still has go on. -/
def Obligations.ResetEdgeRestartsTheHistory : Prop :=
  ∀ s : State, s.listing = [] → s.inputs.rst = true →
    ∃ t, step s = .next t ∧ t.accepted = [] ∧ t.delivered = [] ∧ t.stimulus = s.stimulus.tail ∧ t.listing = []

/-- 70_reset_and_hazards.md R130: in a cycle with `rst = 1` the other inputs have no effect on the state after the edge, and no accept
and no deliver happens. -/
def Obligations.InputsDuringResetAreIgnored : Prop :=
  (∀ (s : State) (r r' : Row) (rest : List Row), s.listing = [] → r.rst = true → r'.rst = true →
    step { s with stimulus := r :: rest } = step { s with stimulus := r' :: rest }) ∧
  (∀ s : State, s.inputs.rst = true → s.accept s.inputs = none ∧ s.deliver s.inputs = none)

/-- 60_exceptions.md R115: reset has priority over both handshakes; without reset, an accept and a deliver in one cycle both take
effect. -/
def Obligations.ResetHasPriorityOverBothHandshakes : Prop :=
  (∀ s : State, s.listing = [] → s.inputs.rst = true →
    s.observe.inReady = false ∧ s.observe.outValid = false ∧
    s.accept s.inputs = none ∧ s.deliver s.inputs = none ∧
    ∃ t, step s = .next t ∧ t.s1_v = false ∧ t.s2_v = false ∧ t.s3_v = false) ∧
  (∀ (s : State) (w r : Word), s.listing = [] → s.accept s.inputs = some w → s.deliver s.inputs = some r →
    ∃ t, step s = .next t ∧ t.accepted = s.accepted ++ [w] ∧ t.delivered = s.delivered ++ [r] ∧
      t.s1_v = true ∧ t.s1_d = xsl13 w)

/-- 70_reset_and_hazards.md R134: in the first cycle after a reset edge with `rst = 0` the block is ready, offers nothing, and accepts
the seed offered in it. -/
def Obligations.ReadyInTheFirstCycleAfterReset : Prop :=
  ∀ s t : State, s.listing = [] → s.inputs.rst = true → step s = .next t → t.inputs.rst = false →
    t.s3_v = false ∧ t.observe.inReady = true ∧ t.observe.outValid = false ∧
    (t.inputs.inValid = true → ∃ u, step t = .next u ∧ u.accepted = t.accepted ++ [t.inputs.inData] ∧
      u.s1_v = true ∧ u.s1_d = xsl13 t.inputs.inData)

/-- The state after reset has its valid bits at 0 (70_reset_and_hazards.md R127) and meets the invariant. -/
def Obligations.ResetStateMeetsTheInvariant : Prop :=
  State.reset.Inv ∧ State.reset.s1_v = false ∧ State.reset.s2_v = false ∧ State.reset.s3_v = false

/- Invariant, order, capacity -/

/-- Every step keeps the invariant, from every state that meets it: what is delivered and still to be delivered is the transform of what
was accepted, in order (10_state.md R22, 20_memory.md R43, 42_pipeline_protocol.md R105). -/
def Obligations.EveryStepKeepsTheInvariant : Prop :=
  ∀ s t : State, s.Inv → step s = .next t → t.Inv

/-- 10_state.md R22: a valid stage k holds the composition of stage operations 1..k applied to the seed of its transaction. The
transactions in flight are the accepted ones not yet delivered; the oldest is in the last valid stage. -/
def Obligations.ValidStagesHoldTheirSeedsImage : Prop :=
  ∀ s : State, s.Inv →
    s.seedsInFlight = s.accepted.drop s.delivered.length ∧
    (s.s3_v = true → ∃ w, (s.accepted.drop s.delivered.length)[0]? = some w ∧ s.s3_d = xsl15 (xsr17 (xsl13 w))) ∧
    (s.s2_v = true → ∃ w, (s.accepted.drop s.delivered.length)[s.s3_v.toNat]? = some w ∧
      s.s2_d = xsr17 (xsl13 w)) ∧
    (s.s1_v = true → ∃ w, (s.accepted.drop s.delivered.length)[s.s3_v.toNat + s.s2_v.toNat]? = some w ∧
      s.s1_d = xsl13 w)

/-- 42_pipeline_protocol.md R96: the number in flight is the number of valid stages, at most 3, and equals accepts minus delivers since
the last reset edge. -/
def Obligations.AtMostThreeInFlight : Prop :=
  ∀ s : State, s.Inv →
    s.seedsInFlight.length = s.s1_v.toNat + s.s2_v.toNat + s.s3_v.toNat ∧
    s.seedsInFlight.length = s.accepted.length - s.delivered.length ∧
    s.delivered.length ≤ s.accepted.length ∧ s.seedsInFlight.length ≤ 3

/-- 42_pipeline_protocol.md R106: whatever the state before it, whatever the caller drives, at the start of every cycle after a reset
edge the k-th word delivered is the transform of the k-th seed accepted, and the delivers are at most three behind. -/
def Obligations.EveryDeliveredWordIsTheTransformOfItsSeed : Prop :=
  ∀ (s : State) (n : Nat), s.listing = [] → s.inputs.rst = true →
    ∃ t, run (n + 1) s = .next t ∧
      t.delivered.length ≤ t.accepted.length ∧ t.accepted.length ≤ t.delivered.length + 3 ∧
      (∀ k, k < t.delivered.length → t.delivered[k]? = t.accepted[k]?.map xorshift32)

/-- The pipeline refines a first-in first-out queue of seeds, from every state: a step empties the queue at a reset edge, and otherwise
takes the delivered seed off the front and adds the accepted seed at the back; what it delivers is the transform of the front
(20_memory.md R43, R44, 42_pipeline_protocol.md R105, R131). -/
def Obligations.PipelineRefinesAQueueOfSeeds : Prop :=
  ∀ s : State, s.listing = [] →
    (∃ t, step s = .next t ∧
      t.seedsInFlight =
        if s.inputs.rst then []
        else (if (s.deliver s.inputs).isSome then s.seedsInFlight.tail else s.seedsInFlight) ++
          (s.accept s.inputs).toList) ∧
    (∀ r, s.deliver s.inputs = some r → ∃ w ws, s.seedsInFlight = w :: ws ∧ r = xorshift32 w)

/- Latency and throughput -/

/-- 42_pipeline_protocol.md R107: after its accept a transaction is in stage 1, after one advancing edge in stage 2, after the second in
stage 3, and after the third it is the last word delivered, however many stalls lie between. -/
def Obligations.TransactionMovesOneStagePerAdvance : Prop :=
  ∀ (s s1 t : State) (w : Word) (n k : Nat), s.listing = [] → s.accept s.inputs = some w → step s = .next s1 →
    advancesIn n s1 = some k → run n s1 = .next t →
    (k = 0 → t.s1_v = true ∧ t.s1_d = xsl13 w) ∧
    (k = 1 → t.s2_v = true ∧ t.s2_d = xsr17 (xsl13 w)) ∧
    (k = 2 → t.s3_v = true ∧ t.s3_d = xorshift32 w) ∧
    (k = 3 → t.delivered.getLast? = some (xorshift32 w))

/-- Latency without a stall (70_reset_and_hazards.md R135, 42_pipeline_protocol.md R107): a seed accepted in cycle n has `out_valid = 1` and
its result on `out_data` in cycle n+3, if the caller takes any result offered in cycles n+1 and n+2, whatever it offers. -/
def Obligations.LatencyWithoutStallIsThreeCycles : Prop :=
  ∀ (s : State) (r0 r1 r2 r3 : Row) (rest : List Row) (w : Word), s.listing = [] →
    s.stimulus = r0 :: r1 :: r2 :: r3 :: rest → s.accept s.inputs = some w →
    r1.rst = false → r1.takesResults → r2.rst = false → r2.takesResults → r3.rst = false →
    ∃ t, run 3 s = .next t ∧ t.observe.outValid = true ∧ t.observe.outData = some (xorshift32 w)

/-- One accept per cycle (70_reset_and_hazards.md R135): with `out_ready = 1` held, seeds offered in consecutive cycles are all accepted,
their results follow those already in flight in order, and from three seeds on the pipeline is full. -/
def Obligations.OneSeedIsAcceptedPerCycle : Prop :=
  ∀ (ws : List Word) (rest : List Row) (s : State), s.listing = [] → s.stimulus = ws.map Row.offer ++ rest →
    ∃ t, run ws.length s = .next t ∧
      t.accepted = s.accepted ++ ws ∧
      t.delivered ++ t.pendingResults = s.delivered ++ s.pendingResults ++ ws.map xorshift32 ∧
      (3 ≤ ws.length → t.inFlight = 3) ∧
      t.stimulus = rest

/-- Bounded delivery under the caller's fairness (70_reset_and_hazards.md R138(c), 42_pipeline_protocol.md R107): in three cycles with
`rst = 0` whose caller takes any result offered, everything in flight is delivered, in order, whatever is offered meanwhile. -/
def Obligations.ThreeReadyCyclesDeliverEverythingInFlight : Prop :=
  ∀ (s : State) (r0 r1 r2 : Row) (rest : List Row), s.listing = [] → s.stimulus = r0 :: r1 :: r2 :: rest →
    (∀ r ∈ [r0, r1, r2], r.rst = false ∧ r.takesResults) →
    ∃ t, run 3 s = .next t ∧ t.delivered = s.delivered ++ s.pendingResults ∧ t.stimulus = rest

/-- The feedback chain at the cycle level (70_reset_and_hazards.md R136, 30_encoding.md R63): from an empty pipeline, `ITER n, seed` fed back
in the earliest legal cycles takes 3n+1 cycles, accepts the chain's seeds, delivers its results and leaves the pipeline empty. The cycle
that takes the last result without feeding it back is the model's choice (log 25). -/
def Obligations.FeedbackChainTakesThreeCyclesPerResult : Prop :=
  ∀ (n : Nat) (seed : Word) (rest : List Row) (s : State), 1 ≤ n → s.listing = [] → s.inFlight = 0 →
    s.stimulus = iterStimulus n seed ++ rest →
    ∃ t, run (3 * n + 1) s = .next t ∧
      t.accepted = s.accepted ++ iterSeeds n seed ∧
      t.delivered = s.delivered ++ iterResults n seed ∧
      t.inFlight = 0 ∧ t.stimulus = rest

/- What nobody can observe -/

/-- The data register of an invalid stage is never observed (10_state.md R22, 42_pipeline_protocol.md R110): two states that differ in
nothing else give the same observation and history in every cycle, for a caller that uses `out_data` only with `out_valid`. -/
def Obligations.InvalidStageDataIsNeverObserved : Prop :=
  ∀ (n : Nat) (s t : State), s.AgreeOnValid t → s.listing = [] →
    (∀ r ∈ s.stimulus, r.usesOutDataLawfully) →
    ∃ s' t', run n s = .next s' ∧ run n t = .next t' ∧ s'.AgreeOnValid t' ∧ s'.observe = t'.observe

/-- One reset edge makes the past unobservable (70_reset_and_hazards.md R126, R131, 41_next_transform.md R80): two states with any registers
and histories at all, under the same caller, give the same observation and history in every cycle after a reset edge. -/
def Obligations.ResetErasesThePast : Prop :=
  ∀ (n : Nat) (s t : State), s.listing = [] → t.listing = [] → s.stimulus = t.stimulus → s.drawIndex = t.drawIndex →
    s.inputs.rst = true → (∀ r ∈ s.stimulus, r.usesOutDataLawfully) →
    ∃ s' t', run (n + 1) s = .next s' ∧ run (n + 1) t = .next t' ∧ s'.AgreeOnValid t' ∧ s'.observe = t'.observe

/- The stimulus -/

/-- A stimulus row can name any function of the same cycle's outputs that forms no combinational cycle (30_encoding.md R64,
42_pipeline_protocol.md R104): `out_ready` any function of `out_valid` and `out_data`, and `in_valid` and `in_data` any functions of
`in_ready`, `out_valid` and `out_data`. That a row writes them as expressions, and `rst` as a level, is log 22. -/
def Obligations.StimulusRowsNameEveryFunctionOfTheOutputs : Prop :=
  ∀ (rst : Bool) (ready : Bool → Word → Bool) (valid : Bool → Bool → Word → Bool) (data : Bool → Bool → Word → Word),
    ∃ r : Row, ∀ s : State,
      let outValid := s.outValid rst
      let outData := s.outData rst
      let outReady := ready outValid outData
      let inReady := s.inReady rst outReady
      r.inputs s =
        { rst := rst
          inValid := valid inReady outValid outData
          inData := data inReady outValid outData
          outReady := outReady }
end

