-- ==== Sys2Proof/Laws/State.lean ====
section
/-! SUPPORT. What each update of the state does to each field: one lemma per field per update. -/

namespace Sys2Proof.Machine

variable (s : State)

/-! ### `State.writeS1` -/

@[simp] theorem State.writeS1_s1_v (w : Word) : (s.writeS1 w).s1_v = s.s1_v := rfl
@[simp] theorem State.writeS1_s1_d (w : Word) : (s.writeS1 w).s1_d = w := rfl
@[simp] theorem State.writeS1_s2_v (w : Word) : (s.writeS1 w).s2_v = s.s2_v := rfl
@[simp] theorem State.writeS1_s2_d (w : Word) : (s.writeS1 w).s2_d = s.s2_d := rfl
@[simp] theorem State.writeS1_s3_v (w : Word) : (s.writeS1 w).s3_v = s.s3_v := rfl
@[simp] theorem State.writeS1_s3_d (w : Word) : (s.writeS1 w).s3_d = s.s3_d := rfl
@[simp] theorem State.writeS1_stimulus (w : Word) : (s.writeS1 w).stimulus = s.stimulus := rfl
@[simp] theorem State.writeS1_listing (w : Word) : (s.writeS1 w).listing = s.listing := rfl
@[simp] theorem State.writeS1_accepted (w : Word) : (s.writeS1 w).accepted = s.accepted := rfl
@[simp] theorem State.writeS1_delivered (w : Word) : (s.writeS1 w).delivered = s.delivered := rfl
@[simp] theorem State.writeS1_drawIndex (w : Word) : (s.writeS1 w).drawIndex = s.drawIndex := rfl

/-! ### `State.writeS2` -/

@[simp] theorem State.writeS2_s1_v (w : Word) : (s.writeS2 w).s1_v = s.s1_v := rfl
@[simp] theorem State.writeS2_s1_d (w : Word) : (s.writeS2 w).s1_d = s.s1_d := rfl
@[simp] theorem State.writeS2_s2_v (w : Word) : (s.writeS2 w).s2_v = s.s2_v := rfl
@[simp] theorem State.writeS2_s2_d (w : Word) : (s.writeS2 w).s2_d = w := rfl
@[simp] theorem State.writeS2_s3_v (w : Word) : (s.writeS2 w).s3_v = s.s3_v := rfl
@[simp] theorem State.writeS2_s3_d (w : Word) : (s.writeS2 w).s3_d = s.s3_d := rfl
@[simp] theorem State.writeS2_stimulus (w : Word) : (s.writeS2 w).stimulus = s.stimulus := rfl
@[simp] theorem State.writeS2_listing (w : Word) : (s.writeS2 w).listing = s.listing := rfl
@[simp] theorem State.writeS2_accepted (w : Word) : (s.writeS2 w).accepted = s.accepted := rfl
@[simp] theorem State.writeS2_delivered (w : Word) : (s.writeS2 w).delivered = s.delivered := rfl
@[simp] theorem State.writeS2_drawIndex (w : Word) : (s.writeS2 w).drawIndex = s.drawIndex := rfl

/-! ### `State.writeS3` -/

@[simp] theorem State.writeS3_s1_v (w : Word) : (s.writeS3 w).s1_v = s.s1_v := rfl
@[simp] theorem State.writeS3_s1_d (w : Word) : (s.writeS3 w).s1_d = s.s1_d := rfl
@[simp] theorem State.writeS3_s2_v (w : Word) : (s.writeS3 w).s2_v = s.s2_v := rfl
@[simp] theorem State.writeS3_s2_d (w : Word) : (s.writeS3 w).s2_d = s.s2_d := rfl
@[simp] theorem State.writeS3_s3_v (w : Word) : (s.writeS3 w).s3_v = s.s3_v := rfl
@[simp] theorem State.writeS3_s3_d (w : Word) : (s.writeS3 w).s3_d = w := rfl
@[simp] theorem State.writeS3_stimulus (w : Word) : (s.writeS3 w).stimulus = s.stimulus := rfl
@[simp] theorem State.writeS3_listing (w : Word) : (s.writeS3 w).listing = s.listing := rfl
@[simp] theorem State.writeS3_accepted (w : Word) : (s.writeS3 w).accepted = s.accepted := rfl
@[simp] theorem State.writeS3_delivered (w : Word) : (s.writeS3 w).delivered = s.delivered := rfl
@[simp] theorem State.writeS3_drawIndex (w : Word) : (s.writeS3 w).drawIndex = s.drawIndex := rfl

/-! ### `State.advance` -/

@[simp] theorem State.advance_s1_v (p : Inputs) : (s.advance p).s1_v = p.inValid := rfl
@[simp] theorem State.advance_s1_d (p : Inputs) :
    (s.advance p).s1_d = if p.inValid then xsl13 p.inData else Config.freeStage1 s.drawIndex := rfl
@[simp] theorem State.advance_s2_v (p : Inputs) : (s.advance p).s2_v = s.s1_v := rfl
@[simp] theorem State.advance_s2_d (p : Inputs) :
    (s.advance p).s2_d = if s.s1_v then xsr17 s.s1_d else Config.freeStage2 s.drawIndex := rfl
@[simp] theorem State.advance_s3_v (p : Inputs) : (s.advance p).s3_v = s.s2_v := rfl
@[simp] theorem State.advance_s3_d (p : Inputs) :
    (s.advance p).s3_d = if s.s2_v then xsl15 s.s2_d else Config.freeStage3 s.drawIndex := rfl
@[simp] theorem State.advance_stimulus (p : Inputs) : (s.advance p).stimulus = s.stimulus := rfl
@[simp] theorem State.advance_listing (p : Inputs) : (s.advance p).listing = s.listing := rfl
@[simp] theorem State.advance_accepted (p : Inputs) : (s.advance p).accepted = s.accepted := rfl
@[simp] theorem State.advance_delivered (p : Inputs) : (s.advance p).delivered = s.delivered := rfl
@[simp] theorem State.advance_drawIndex (p : Inputs) : (s.advance p).drawIndex = s.drawIndex := rfl

/-! ### `State.clear` -/

@[simp] theorem State.clear_s1_v : (s.clear).s1_v = false := rfl
@[simp] theorem State.clear_s1_d : (s.clear).s1_d = Config.freeStage1 s.drawIndex := rfl
@[simp] theorem State.clear_s2_v : (s.clear).s2_v = false := rfl
@[simp] theorem State.clear_s2_d : (s.clear).s2_d = Config.freeStage2 s.drawIndex := rfl
@[simp] theorem State.clear_s3_v : (s.clear).s3_v = false := rfl
@[simp] theorem State.clear_s3_d : (s.clear).s3_d = Config.freeStage3 s.drawIndex := rfl
@[simp] theorem State.clear_stimulus : (s.clear).stimulus = s.stimulus := rfl
@[simp] theorem State.clear_listing : (s.clear).listing = s.listing := rfl
@[simp] theorem State.clear_accepted : (s.clear).accepted = [] := rfl
@[simp] theorem State.clear_delivered : (s.clear).delivered = [] := rfl
@[simp] theorem State.clear_drawIndex : (s.clear).drawIndex = s.drawIndex := rfl

/-! ### `State.record` -/

@[simp] theorem State.record_s1_v (p : Inputs) : (s.record p).s1_v = s.s1_v := rfl
@[simp] theorem State.record_s1_d (p : Inputs) : (s.record p).s1_d = s.s1_d := rfl
@[simp] theorem State.record_s2_v (p : Inputs) : (s.record p).s2_v = s.s2_v := rfl
@[simp] theorem State.record_s2_d (p : Inputs) : (s.record p).s2_d = s.s2_d := rfl
@[simp] theorem State.record_s3_v (p : Inputs) : (s.record p).s3_v = s.s3_v := rfl
@[simp] theorem State.record_s3_d (p : Inputs) : (s.record p).s3_d = s.s3_d := rfl
@[simp] theorem State.record_stimulus (p : Inputs) : (s.record p).stimulus = s.stimulus := rfl
@[simp] theorem State.record_listing (p : Inputs) : (s.record p).listing = s.listing := rfl
@[simp] theorem State.record_accepted (p : Inputs) :
    (s.record p).accepted = s.accepted ++ (s.accept p).toList := rfl
@[simp] theorem State.record_delivered (p : Inputs) :
    (s.record p).delivered = s.delivered ++ (s.deliver p).toList := rfl
@[simp] theorem State.record_drawIndex (p : Inputs) : (s.record p).drawIndex = s.drawIndex := rfl

/-! ### `State.nextCycle` -/

@[simp] theorem State.nextCycle_s1_v : (s.nextCycle).s1_v = s.s1_v := rfl
@[simp] theorem State.nextCycle_s1_d : (s.nextCycle).s1_d = s.s1_d := rfl
@[simp] theorem State.nextCycle_s2_v : (s.nextCycle).s2_v = s.s2_v := rfl
@[simp] theorem State.nextCycle_s2_d : (s.nextCycle).s2_d = s.s2_d := rfl
@[simp] theorem State.nextCycle_s3_v : (s.nextCycle).s3_v = s.s3_v := rfl
@[simp] theorem State.nextCycle_s3_d : (s.nextCycle).s3_d = s.s3_d := rfl
@[simp] theorem State.nextCycle_stimulus : (s.nextCycle).stimulus = s.stimulus.tail := rfl
@[simp] theorem State.nextCycle_listing : (s.nextCycle).listing = s.listing := rfl
@[simp] theorem State.nextCycle_accepted : (s.nextCycle).accepted = s.accepted := rfl
@[simp] theorem State.nextCycle_delivered : (s.nextCycle).delivered = s.delivered := rfl
@[simp] theorem State.nextCycle_drawIndex : (s.nextCycle).drawIndex = s.drawIndex + 1 := rfl

/-! ### `State.afterFetch` -/

@[simp] theorem State.afterFetch_s1_v : (s.afterFetch).s1_v = s.s1_v := rfl
@[simp] theorem State.afterFetch_s1_d : (s.afterFetch).s1_d = s.s1_d := rfl
@[simp] theorem State.afterFetch_s2_v : (s.afterFetch).s2_v = s.s2_v := rfl
@[simp] theorem State.afterFetch_s2_d : (s.afterFetch).s2_d = s.s2_d := rfl
@[simp] theorem State.afterFetch_s3_v : (s.afterFetch).s3_v = s.s3_v := rfl
@[simp] theorem State.afterFetch_s3_d : (s.afterFetch).s3_d = s.s3_d := rfl
@[simp] theorem State.afterFetch_stimulus : (s.afterFetch).stimulus = s.stimulus := rfl
@[simp] theorem State.afterFetch_listing : (s.afterFetch).listing = s.listing.tail := rfl
@[simp] theorem State.afterFetch_accepted : (s.afterFetch).accepted = s.accepted := rfl
@[simp] theorem State.afterFetch_delivered : (s.afterFetch).delivered = s.delivered := rfl
@[simp] theorem State.afterFetch_drawIndex : (s.afterFetch).drawIndex = s.drawIndex := rfl

/-- Without a listing nothing is taken off it. -/
theorem State.afterFetch_of_listing_nil (h : s.listing = []) : s.afterFetch = s := by
  cases s; cases h; rfl

end Sys2Proof.Machine
end

