-- ==== Sys2Proof/Laws/Cycle.lean ====
section
/-! SUPPORT. Everything a clock cycle and a step can do, said once. -/

namespace Sys2Proof.Machine

/- The edge -/

/-- The pipeline advances exactly if stage 3 is empty or its result is taken (42_pipeline_protocol.md R97). -/
theorem State.adv_eq_true {s : State} {outReady : Bool} :
    s.adv outReady = true ↔ s.s3_v = false ∨ outReady = true := by
  simp [State.adv]

theorem State.edge_of_rst {s : State} {p : Inputs} (h : p.rst = true) : s.edge p = s.clear := by
  simp [State.edge, h]

theorem State.edge_of_adv {s : State} {p : Inputs} (h : p.rst = false) (ha : s.adv p.outReady = true) :
    s.edge p = (s.record p).advance p := by
  simp [State.edge, h, ha]

theorem State.edge_of_stall {s : State} {p : Inputs} (h : p.rst = false) (ha : s.adv p.outReady = false) :
    s.edge p = s := by
  simp [State.edge, h, ha]

/-- The three things a clock cycle can do (42_pipeline_protocol.md R98): reset, advance, stall. -/
theorem State.clockCycle_cases (s : State) (p : Inputs) :
    (p.rst = true ∧ s.clockCycle p = s.clear.nextCycle) ∨
    (p.rst = false ∧ s.adv p.outReady = true ∧ s.clockCycle p = ((s.record p).advance p).nextCycle) ∨
    (p.rst = false ∧ s.adv p.outReady = false ∧ s.clockCycle p = s.nextCycle) := by
  unfold State.clockCycle
  cases hr : p.rst with
  | true => exact .inl ⟨rfl, by rw [State.edge_of_rst hr]⟩
  | false =>
    cases ha : s.adv p.outReady with
    | true => exact .inr (.inl ⟨rfl, rfl, by rw [State.edge_of_adv hr ha]⟩)
    | false => exact .inr (.inr ⟨rfl, rfl, by rw [State.edge_of_stall hr ha]⟩)

@[simp] theorem State.clockCycle_listing (s : State) (p : Inputs) : (s.clockCycle p).listing = s.listing := by
  rcases s.clockCycle_cases p with ⟨-, h⟩ | ⟨-, -, h⟩ | ⟨-, -, h⟩ <;> simp [h]

@[simp] theorem State.clockCycle_stimulus (s : State) (p : Inputs) :
    (s.clockCycle p).stimulus = s.stimulus.tail := by
  rcases s.clockCycle_cases p with ⟨-, h⟩ | ⟨-, -, h⟩ | ⟨-, -, h⟩ <;> simp [h]

@[simp] theorem State.clockCycle_drawIndex (s : State) (p : Inputs) :
    (s.clockCycle p).drawIndex = s.drawIndex + 1 := by
  rcases s.clockCycle_cases p with ⟨-, h⟩ | ⟨-, -, h⟩ | ⟨-, -, h⟩ <;> simp [h]

/-- The events of a cycle without reset are what it adds to the history. -/
theorem State.clockCycle_history {s : State} {p : Inputs} (h : p.rst = false) :
    (s.clockCycle p).accepted = s.accepted ++ (s.accept p).toList ∧
    (s.clockCycle p).delivered = s.delivered ++ (s.deliver p).toList := by
  rcases s.clockCycle_cases p with ⟨h', -⟩ | ⟨-, -, e⟩ | ⟨-, ha, e⟩
  · simp [h] at h'
  · simp [e]
  · have ⟨hv, ho⟩ : s.s3_v = true ∧ p.outReady = false := by simpa [State.adv] using ha
    have hacc : s.accept p = none := by simp [State.accept, State.inReady, ha]
    have hdel : s.deliver p = none := by simp [State.deliver, ho]
    simp [e, hacc, hdel]

/-- An advancing edge turns what is pending into what it delivers and what stays pending, with the accepted seed's result
behind. -/
theorem State.clockCycle_pending {s : State} {p : Inputs} (h : p.rst = false) (ha : s.adv p.outReady = true) :
    (s.deliver p).toList ++ (s.clockCycle p).pendingResults =
      s.pendingResults ++ (s.accept p).toList.map xorshift32 := by
  have he : s.clockCycle p = ((s.record p).advance p).nextCycle := by
    rw [State.clockCycle, State.edge_of_adv h ha]
  have ho : s.s3_v = true → p.outReady = true := by simpa [State.adv, imp_iff_not_or] using ha
  rw [he]
  cases h1 : s.s1_v <;> cases h2 : s.s2_v <;> cases h3 : s.s3_v <;> cases h4 : p.inValid <;>
    simp_all [State.deliver, State.accept, State.inReady, State.pendingResults, State.outValid, State.outData,
      xorshift32]

/-- The inputs of a cycle are its first row's. -/
theorem State.inputs_of_stimulus {s : State} {r : Row} {rest : List Row} (h : s.stimulus = r :: rest) :
    s.inputs = r.inputs s := by
  simp [State.inputs, h]

/-- A seed that the cycle offers anyway changes none of its inputs. -/
theorem Inputs.offering_self {p : Inputs} (h : p.inValid = true) : Inputs.offering p p.inData = p := by
  cases p; cases h; rfl

/- The step -/

/-- Without a listing a step is the clock cycle with the caller's inputs. -/
theorem step_of_listing_nil {s : State} (h : s.listing = []) : step s = .next (s.clockCycle s.inputs) := by
  unfold step State.fetch
  simp only [h]
  cases hv : s.inputs.inValid with
  | false => rfl
  | true =>
    simp only [if_true, decode, exec, s.afterFetch_of_listing_nil h, execNext, Inputs.offering_self hv]

/-- With a listing a step is the next descriptor, decoded in the stage whose turn it is. -/
theorem step_of_listing_cons {s : State} {d : Descriptor} {ds : List Descriptor} (h : s.listing = d :: ds) :
    step s =
      match stageWithRemaining (ds.length + 1) with
      | none => .refused (.listingCount (ds.length + 1))
      | some k =>
        match decodeDesc k d with
        | .ok i => exec i s.afterFetch
        | .error r => .refused (refusalOf r) := by
  unfold step State.fetch
  simp only [h]
  cases stageWithRemaining (ds.length + 1) <;> rfl

/-- What a step that answers a next state can have done. -/
theorem step_cases {s t : State} (h : step s = .next t) :
    (s.listing = [] ∧ t = s.clockCycle s.inputs) ∨
    (∃ d ds k i, s.listing = d :: ds ∧ stageWithRemaining (ds.length + 1) = some k ∧ decodeDesc k d = .ok i ∧
      exec i s.afterFetch = .next t) := by
  cases hl : s.listing with
  | nil =>
    rw [step_of_listing_nil hl] at h
    cases h
    exact .inl ⟨rfl, rfl⟩
  | cons d ds =>
    rw [step_of_listing_cons hl] at h
    cases hk : stageWithRemaining (ds.length + 1) with
    | none => simp [hk] at h
    | some k =>
      cases hd : decodeDesc k d with
      | error r => simp [hk, hd] at h
      | ok i => exact .inr ⟨d, ds, k, i, rfl, hk, hd, by simpa [hk, hd] using h⟩

/- Runs -/

@[simp] theorem run_zero (s : State) : run 0 s = .next s := rfl

theorem run_succ_of_next {s t : State} (h : step s = .next t) (n : Nat) : run (n + 1) s = run n t := by
  simp [run, h]

/-- Without a listing every run is a run of clock cycles. -/
theorem run_succ_of_listing_nil {s : State} (h : s.listing = []) (n : Nat) :
    run (n + 1) s = run n (s.clockCycle s.inputs) :=
  run_succ_of_next (step_of_listing_nil h) n

/-- A run of the model is a run of the host's machine. -/
theorem core_run_eq_run (n : Nat) : ∀ s : State, Host.Core.run Sys2Proof.core n s = run n s := by
  induction n with
  | zero => exact fun _ => rfl
  | succ n ih =>
    intro s
    show Host.Core.run Sys2Proof.core (Nat.succ n) s = run (Nat.succ n) s
    have hstep : Sys2Proof.core.step s = step s := rfl
    cases h : step s with
    | next t =>
      rw [run_succ_of_next h, ← ih t]
      rw [h] at hstep
      simp only [Host.Core.run, hstep]
    | fault r =>
      rw [h] at hstep
      simp only [Host.Core.run, run, hstep, h]
      rfl
    | refused r =>
      rw [h] at hstep
      simp only [Host.Core.run, run, hstep, h]
      rfl

end Sys2Proof.Machine
end

