-- ==== Sys2Proof/Laws/Encoding.lean ====
section
/-! SUPPORT. What the descriptor table can answer. -/

namespace Sys2Proof

/-- Every row compares all six bits. -/
theorem descTable_mask {r : DescRow} (h : r ∈ descTable) : r.mask = BitVec.allOnes 6 := by
  fin_cases h <;> decide

/-- A selected row is a row of the table and has the descriptor as its value. -/
theorem descRow_eq_some {d : Descriptor} {r : DescRow} (h : descRow d = some r) : r ∈ descTable ∧ d = r.value := by
  have hm := List.mem_of_find?_eq_some h
  have hv : d &&& r.mask = r.value := by simpa [DescRow.matchesWord] using List.find?_some h
  rw [descTable_mask hm, BitVec.and_allOnes] at hv
  exact ⟨hm, hv⟩

/-- No descriptor matches two rows. -/
theorem descTable_values_differ : descTable.Pairwise (fun r q => r.value ≠ q.value) := by decide

end Sys2Proof
end

