-- ==== Sys2Proof/Laws/Operands.lean ====
section
/-! SUPPORT. What a stimulus row drives. -/

namespace Sys2Proof.Machine

section
variable {σ : Type} (value : σ → Bool) (a b : BitDrive σ)

@[simp] theorem BitDrive.eval_level (v : Bool) : (BitDrive.level v : BitDrive σ).eval value = v := rfl
@[simp] theorem BitDrive.eval_signal (x : σ) : (BitDrive.signal x).eval value = value x := rfl
@[simp] theorem BitDrive.eval_not : (BitDrive.not a).eval value = !a.eval value := rfl
@[simp] theorem BitDrive.eval_and : (BitDrive.and a b).eval value = (a.eval value && b.eval value) := rfl
@[simp] theorem BitDrive.eval_or : (BitDrive.or a b).eval value = (a.eval value || b.eval value) := rfl
@[simp] theorem BitDrive.eval_xor : (BitDrive.xor a b).eval value = (a.eval value ^^ b.eval value) := rfl

end

section
variable (value : OfferSignal → Bool) (w : Word) (n : Nat) (a b : DataDrive)

@[simp] theorem DataDrive.eval_word (v : Word) : (DataDrive.word v).eval value w n = v := rfl
@[simp] theorem DataDrive.eval_outData : DataDrive.outData.eval value w n = w := rfl
@[simp] theorem DataDrive.eval_mux (c : BitDrive OfferSignal) :
    (DataDrive.mux c a b).eval value w n = if c.eval value then a.eval value w n else b.eval value w n := rfl

end

@[simp] theorem Row.inputs_rst (r : Row) (s : State) : (r.inputs s).rst = r.rst := rfl

@[simp] theorem Row.inputs_outReady (r : Row) (s : State) :
    (r.inputs s).outReady = r.outReadyWith (s.outValid r.rst) (s.outData r.rst) := rfl

/-- While nothing is offered on the output port, the block is ready exactly outside reset (42_pipeline_protocol.md R94, R95). -/
theorem State.inReady_of_not_outValid {s : State} {rst : Bool} (outReady : Bool) (h : s.outValid rst = false) :
    s.inReady rst outReady = !rst := by
  cases rst <;> simp_all [State.outValid, State.inReady, State.adv]

/-- The word offered on the output port is stage 3's (42_pipeline_protocol.md R95). -/
theorem State.outData_of_outValid {s : State} {rst : Bool} (h : s.outValid rst = true) : s.outData rst = s.s3_d := by
  rw [State.outData, if_pos h]

/-- Without reset a row that takes an offered result lets the pipeline advance, whatever stage 3 holds. -/
theorem Row.adv_of_takes {r : Row} {s : State} (hr : r.rst = false) (h : ∀ w, r.outReadyWith true w = true) :
    s.adv (r.inputs s).outReady = true := by
  cases hv : s.s3_v with
  | false => simp [State.adv, hv]
  | true =>
    have ho : s.outValid r.rst = true := by simp [State.outValid, hv, hr]
    simp [State.adv, ho, h]

end Sys2Proof.Machine
end

