-- ==== Sys2Proof/Laws/PerInstr.lean ====
section
/-! SUPPORT. Statements about every operation as syntax, one lemma per constructor. -/

namespace Sys2Proof.Laws

/-- The operation may stand at exactly one place, and its encoding stands there (30_encoding.md R55, R57, R59). -/
def Placed.Statement (i : Instr) : Prop :=
  (∀ p : Place, Instr.wellFormedAt p i = true ↔ p = i.place) ∧ (encode i).place = i.place

theorem Placed.next (seed : Word) : Placed.Statement (.next seed) :=
  ⟨fun p => by simp [Instr.wellFormedAt, eq_comm], rfl⟩

theorem Placed.xsl13 : Placed.Statement .xsl13 :=
  ⟨fun p => by simp [Instr.wellFormedAt, eq_comm], rfl⟩

theorem Placed.xsr17 : Placed.Statement .xsr17 :=
  ⟨fun p => by simp [Instr.wellFormedAt, eq_comm], rfl⟩

theorem Placed.xsl15 : Placed.Statement .xsl15 :=
  ⟨fun p => by simp [Instr.wellFormedAt, eq_comm], rfl⟩

end Sys2Proof.Laws
end

