-- ==== Sys2Proof/Laws/Words.lean ====
section
/-! SUPPORT. The shift-xor primitive bit by bit. -/

namespace Sys2Proof.Machine

/-- A left shift-xor at one bit (40_shift_xor_steps.md R65, 00_scope.md R12). -/
theorem getLsbD_shiftXor_left (k : Nat) (x : Word) (i : Nat) :
    (shiftXor .left k x).getLsbD i =
      (x.getLsbD i ^^ (decide (i < 32) && !decide (i < k) && x.getLsbD (i - k))) := by
  simp [shiftXor, BitVec.getLsbD_xor, BitVec.getLsbD_shiftLeft]

/-- A right shift-xor at one bit; the shift fills with zeros (40_shift_xor_steps.md R65, 00_scope.md R12). -/
theorem getLsbD_shiftXor_right (k : Nat) (x : Word) (i : Nat) :
    (shiftXor .right k x).getLsbD i = (x.getLsbD i ^^ x.getLsbD (k + i)) := by
  simp [shiftXor, BitVec.getLsbD_xor, BitVec.getLsbD_ushiftRight]

/-- The transform is the three operations in order. -/
theorem xorshift32_eq (x : Word) : xorshift32 x = xsl15 (xsr17 (xsl13 x)) := rfl

end Sys2Proof.Machine
end

