-- ==== Sys2Proof/Tests/Slice0.lean ====
section
/-! SUPPORT. Small tests, with expected results from spec/, and a witness for the hypotheses of each statement. -/

namespace Sys2Proof.Machine

/- Helpers -/

/-- A state with the given stages, rows and nothing else. -/
def mk (a b c : Option Word) (rows : List Row) : State :=
  { State.reset with
    s1_v := a.isSome, s1_d := a.getD 0#32
    s2_v := b.isSome, s2_d := b.getD 0#32
    s3_v := c.isSome, s3_d := c.getD 0#32
    stimulus := rows }

/-- A row of literal inputs. -/
def lit (rst inValid : Bool) (inData : Word) (outReady : Bool) : Row :=
  { rst := rst, inValid := .level inValid, inData := .word inData, outReady := .level outReady }

/-- Whether an outcome is a next state with a property. -/
def nextHas (o : Host.Outcome State Fault Refusal) (p : State → Bool) : Bool :=
  match o with
  | .next t => p t
  | .fault _ => false
  | .refused _ => false

/-- Whether an outcome is a given refusal. -/
def refusedWith (o : Host.Outcome State Fault Refusal) (r : Refusal) : Bool :=
  match o with
  | .refused q => q = r
  | _ => false

/- WellFormed: each check refuses an ill-formed term -/

theorem test_xsl13_refused_in_stage2 : Instr.wellFormedAt (.stage .s2) .xsl13 = false := by decide
theorem test_next_refused_in_stage1 : Instr.wellFormedAt (.stage .s1) (.next 0x1#32) = false := by decide
theorem test_stage_operation_refused_in_script : wellFormedScript [.next 0x1#32, .xsl13] = false := by decide
theorem test_listing_order_refused : wellFormedListing [.xsr17, .xsl13, .xsl15] = false := by decide
theorem test_iter_zero_refused : wellFormedIterCount 0 = false := by decide

/- Decoding: words written out from 30_encoding.md R52 and R57 -/

theorem test_decode_xsl13 : decode (.desc .s1 0b001101#6) = .ok .xsl13 := by decide
theorem test_decode_xsr17 : decode (.desc .s2 0b110001#6) = .ok .xsr17 := by decide
theorem test_decode_xsl15 : decode (.desc .s3 0b001111#6) = .ok .xsl15 := by decide
theorem test_decode_next : decode (.port 0b00000000000000000011000000111001#32) = .ok (.next 12345#32) := by decide
theorem test_decode_wrong_stage : decode (.desc .s1 0x31#6) = .error (.wrongStage .s1 0x31#6) := by decide
theorem test_decode_reserved : decode (.desc .s1 0x0E#6) = .error (.reservedDescriptor .s1 0x0E#6) := by decide
theorem test_decode_table_words :
    decodeTableWord 32 0xFFFFFFFF = some (.next 0xFFFFFFFF#32) ∧ decodeTableWord 8 0x0D = some .xsl13 ∧
    decodeTableWord 8 0x31 = some .xsr17 ∧ decodeTableWord 8 0x0F = some .xsl15 ∧
    decodeTableWord 0 0 = some (.next 0#32) ∧ decodeTableWord 8 0x8D = none ∧ decodeTableWord 8 0x0E = none := by decide
theorem test_decode_listing : decodeListing [0x0D#6, 0x31#6, 0x0F#6] = .ok [.xsl13, .xsr17, .xsl15] := by decide
theorem test_decode_listing_count : decodeListing [0x31#6, 0x0F#6] = .error (.listingCount 2) := by decide

/- Script notation: 30_encoding.md R62, R63 -/

theorem test_parse_next_hex : parseLine ['N', 'E', 'X', 'T', ' ', '0', 'x', '3', '0', '3', '9'] = some (.next 12345#32) := by
  decide
theorem test_parse_next_too_large :
    parseLine ['N', 'E', 'X', 'T', ' ', '4', '2', '9', '4', '9', '6', '7', '2', '9', '6'] = none := by decide
theorem test_parse_iter : parseLine ['I', 'T', 'E', 'R', ' ', '3', ',', ' ', '0', 'x', '8'] = some (.iter 3 8#32) := by
  decide

/- The stage operations: 40_shift_xor_steps.md R76 -/

theorem test_stage_vectors :
    xsl13 0x12345678#32 = 0x98FB5678#32 ∧ xsr17 0x12345678#32 = 0x12345F62#32 ∧
    xsl15 0x12345678#32 = 0x39085678#32 ∧ xsl13 0xDEADBEEF#32 = 0x69705EEF#32 ∧
    xsr17 0xDEADBEEF#32 = 0xDEADD1B9#32 ∧ xsl15 0xDEADBEEF#32 = 0x01DA3EEF#32 := by decide

theorem test_exec_xsl13 :
    nextHas (exec .xsl13 (mk none none none [lit false true 0x0007FFFF#32 false]))
      (fun t => t.s1_d = 0xFFF81FFF#32 ∧ t.s1_v = false) = true := by decide
theorem test_exec_xsr17 :
    nextHas (exec .xsr17 (mk (some 0x80000000#32) none none [])) (fun t => t.s2_d = 0x80004000#32 ∧ t.s2_v = false) = true := by
  decide
theorem test_exec_xsl15 :
    nextHas (exec .xsl15 (mk none (some 0x00010000#32) none [])) (fun t => t.s3_d = 0x80010000#32 ∧ t.s3_v = false) = true := by
  decide

/- Values of the transform: 95_test_vectors.md sections 1 and 3 -/

theorem test_transform_of_chain_element : xorshift32 0x1000A001#32 = 0x45000201#32 := by decide
theorem test_iter_from_high_seed :
    iterResults 3 0x80000000#32 = [0xA0004000#32, 0xA2001400#32, 0x82A04440#32] := by decide

/- The cycle: V1 to V7 of 95_test_vectors.md section 4 -/

/-- V1: an empty pipeline accepts with `out_ready = 0`. -/
theorem test_V1_accept :
    nextHas (step (mk none none none [lit false true 0x00000001#32 false]))
      (fun t => t.s1_v = true ∧ t.s1_d = 0x00002001#32 ∧ t.s2_v = false ∧ t.s3_v = false ∧ t.accepted = [0x00000001#32]) = true := by
  decide

/-- V2: no accept while a result waits. -/
theorem test_V2_stall :
    nextHas (step (mk none none (some 0x1000A001#32) [lit false true 0x00000002#32 false]))
      (fun t => t.s1_v = false ∧ t.s3_v = true ∧ t.s3_d = 0x1000A001#32 ∧ t.accepted = [] ∧ t.delivered = []) = true := by decide

/-- V3: accept and deliver in one cycle. -/
theorem test_V3_accept_and_deliver :
    nextHas (step (mk none none (some 0x1000A001#32) [lit false true 0x00000002#32 true]))
      (fun t => t.s1_v = true ∧ t.s1_d = 0x00004002#32 ∧ t.s3_v = false ∧ t.accepted = [0x00000002#32] ∧
        t.delivered = [0x1000A001#32]) = true := by decide

/-- V4: reset discards all three. -/
theorem test_V4_reset :
    nextHas (step (mk (some 0x00004002#32) (some 0x00002001#32) (some 0x1000A001#32) [lit true true 0x00000003#32 true]))
      (fun t => t.s1_v = false ∧ t.s2_v = false ∧ t.s3_v = false ∧ t.accepted = [] ∧ t.delivered = []) = true := by decide

/-- V5: a bubble enters, and the pipeline advances with `out_ready = 0`. -/
theorem test_V5_bubble :
    nextHas (step (mk (some 0x00002001#32) none none [lit false false 0x0#32 false]))
      (fun t => t.s1_v = false ∧ t.s2_v = true ∧ t.s2_d = 0x00002001#32 ∧ t.s3_v = false) = true := by decide

/-- V6: a full pipeline drains one. -/
theorem test_V6_drain :
    nextHas (step (mk (some 0x06071039#32) (some 0x00004002#32) (some 0x1000A001#32) [lit false false 0x0#32 true]))
      (fun t => t.s1_v = false ∧ t.s2_d = 0x0607133A#32 ∧ t.s3_d = 0x20014002#32 ∧ t.delivered = [0x1000A001#32]) = true := by
  decide

/-- V7: a zero result is delivered like any other. -/
theorem test_V7_zero_result :
    nextHas (step (mk none none (some 0x00000000#32) [lit false false 0x0#32 true]))
      (fun t => t.s3_v = false ∧ t.delivered = [0x00000000#32]) = true := by decide

/-- The ports of V2 and V4. -/
theorem test_ports_of_V2_and_V4 :
    (mk none none (some 0x1000A001#32) [lit false true 0x2#32 false]).observe =
      { inReady := false, outValid := true, outData := some 0x1000A001#32 } ∧
    (mk none none (some 0x1000A001#32) [lit true true 0x3#32 true]).observe =
      { inReady := false, outValid := false, outData := none } := by decide

/- Inputs as functions of the same cycle's outputs: 30_encoding.md R64 -/

/-- `in_valid = in_ready` and `out_ready = NOT out_valid`: with a result offered, nothing is taken and nothing offered. -/
theorem test_inputs_name_ready_and_not_valid :
    (mk none none (some 0x1000A001#32)
        [{ lit false true 0x5#32 true with inValid := .signal .inReady, outReady := .not (.signal .outValid) }]).inputs =
      { rst := false, inValid := false, inData := 0x5#32, outReady := false } := by decide

/-- `in_valid = in_ready` and `in_data = out_data XOR 1`: the changed result is accepted as it is delivered. -/
theorem test_input_data_is_a_function_of_out_data :
    nextHas (step (mk none none (some 0x1000A001#32)
        [{ lit false true 0x0#32 true with inValid := .signal .inReady, inData := .xor .outData (.word 0x1#32) }]))
      (fun t => t.accepted = [0x1000A000#32] ∧ t.delivered = [0x1000A001#32]) = true := by decide

/- Placing a word: it is the first thing that runs after reset -/

theorem test_placed_next_runs :
    nextHas (step (State.reset.withFetchWord 32 0x00003039)) (fun t => t.s1_v = true ∧ t.s1_d = 0x06071039#32) = true := by decide
theorem test_placed_xsr17_runs :
    nextHas (step (State.reset.withFetchWord 8 0x31)) (fun t => t.s2_d = 0#32 ∧ t.listing = [0x0F#6]) = true := by decide
theorem test_placed_reserved_refused :
    refusedWith (step (State.reset.withFetchWord 8 0x0E)) (.reservedDescriptor .s3 0x0E#6) = true := by decide

/- Witnesses: states and operands that meet the hypotheses of the statements -/

theorem witness_StageDescriptorsNameTheirShifts :
    decode (.desc .s1 0x0D#6) = .ok .xsl13 ∧ decode (.desc .s2 0x31#6) = .ok .xsr17 ∧
    decode (.desc .s3 0x0F#6) = .ok .xsl15 := by decide

/-- A wrong first, second and third descriptor, and a fourth one. -/
theorem witness_ReservedDescriptorsAreRefused :
    refusedWith (step { State.reset with listing := [0x31#6, 0x31#6, 0x0F#6] }) (.wrongStage .s1 0x31#6) = true ∧
    refusedWith (step { State.reset with listing := [0x0D#6, 0x0F#6] }) (.wrongStage .s2 0x0D#6) = true ∧
    refusedWith (step { State.reset with listing := [0x3F#6] }) (.reservedDescriptor .s3 0x3F#6) = true ∧
    refusedWith (step { State.reset with listing := [0x0D#6, 0x0D#6, 0x31#6, 0x0F#6] }) (.listingCount 4) = true := by decide

theorem witness_StepRunsTheDecodedOperation :
    ((mk none none none [lit false true 0xFFFFFFFF#32 true]).inputs.inValid = true ∧
      decode (.port 0xFFFFFFFF#32) = .ok (.next 0xFFFFFFFF#32)) ∧
    (stageWithRemaining 3 = some .s1 ∧ decode (.desc .s1 0x0D#6) = .ok .xsl13) ∧
    (stageWithRemaining 1 = some .s3 ∧ decode (.desc .s3 0x0F#6) = .ok .xsl15) ∧
    (mk none none none [lit false false 0x0#32 true]).inputs.inValid = false := by decide

theorem witness_PlacedTableWordRunsNext :
    decodeTableWord 32 0x00000000 = some (.next 0#32) ∧ decodeTableWord 32 0xFFFFFFFF = some (.next 0xFFFFFFFF#32) ∧
    decodeTableWord 8 0x0D = some .xsl13 := by decide

/-- The boundary bits of the three bit equations. -/
theorem witness_bit_equations :
    (xsl13 0x00080001#32).getLsbD 12 = false ∧ (xsl13 0x00000001#32).getLsbD 13 = true ∧
    (xsl13 0x00040000#32).getLsbD 31 = true ∧ (xsr17 0x80000000#32).getLsbD 14 = true ∧
    (xsr17 0x00018000#32).getLsbD 15 = true ∧ (xsr17 0x80000000#32).getLsbD 31 = true ∧
    (xsl15 0x00000001#32).getLsbD 14 = false ∧ (xsl15 0x00000001#32).getLsbD 15 = true ∧
    (xsl15 0x00010000#32).getLsbD 31 = true ∧ xsr17 0x0001FFFF#32 = 0x0001FFFF#32 := by decide

/-- `out_valid = 1` after `XSL15`, for the clause of Xsl15LoadsStageThree. -/
theorem witness_Xsl15LoadsStageThree :
    nextHas (exec .xsl15 (mk none (some 0x00002001#32) (some 0x0#32) []))
      (fun t => t.outValid false = true ∧ t.outData false = 0x1000A001#32) = true := by decide

/-- Without reset and advancing: stage 3 empty, and stage 3 full with its result taken. It serves AdvancingEdgeRunsEachStageOperation,
NextIsAcceptedWhenThePipelineAdvances and EdgeUpdateMovesEachWordOneStage. -/
theorem witness_advancing :
    ((mk none none none [lit false true 0x1#32 false]).inputs.rst = false ∧
      (mk none none none [lit false true 0x1#32 false]).s3_v = false) ∧
    ((mk (some 0x2001#32) (some 0x2001#32) (some 0x1000A001#32) [lit false true 0x1#32 true]).inputs.rst = false ∧
      (mk (some 0x2001#32) (some 0x2001#32) (some 0x1000A001#32) [lit false true 0x1#32 true]).inputs.outReady = true) := by decide

/-- Reset, and stall, for EdgeUpdateMovesEachWordOneStage, AcceptHappensExactlyAtTheHandshake and the reset statements. -/
theorem witness_reset_and_stall :
    (mk none none none [lit true true 0x1#32 true]).inputs.rst = true ∧
    ((mk none none (some 0x1#32) [lit false true 0x1#32 false]).inputs.rst = false ∧
      (mk none none (some 0x1#32) [lit false true 0x1#32 false]).inputs.outReady = false ∧
      (mk none none (some 0x1#32) [lit false true 0x1#32 false]).observe.inReady = false ∧
      (mk none none (some 0x1#32) [lit false true 0x1#32 false]).accept
        (mk none none (some 0x1#32) [lit false true 0x1#32 false]).inputs = none ∧
      (mk none none (some 0x1#32) [lit false true 0x1#32 false]).deliver
        (mk none none (some 0x1#32) [lit false true 0x1#32 false]).inputs = none) := by decide

theorem witness_DatapathListingComputesTheTransform :
    nextHas (run 3 { mk none none none [lit false false 0x80000000#32 true] with listing := [0x0D#6, 0x31#6, 0x0F#6] })
      (fun t => t.s3_d = 0xA0004000#32 ∧ t.listing = []) = true := by decide

/-- Accept and deliver in one cycle, for AcceptHappensExactlyAtTheHandshake, DeliverHappensExactlyAtTheHandshake,
ResetHasPriorityOverBothHandshakes and PipelineRefinesAQueueOfSeeds. -/
theorem witness_accept_and_deliver :
    (mk none none (some 0x1000A001#32) [lit false true 0x2#32 true]).accept
      (mk none none (some 0x1000A001#32) [lit false true 0x2#32 true]).inputs = some 0x2#32 ∧
    (mk none none (some 0x1000A001#32) [lit false true 0x2#32 true]).deliver
      (mk none none (some 0x1000A001#32) [lit false true 0x2#32 true]).inputs = some 0x1000A001#32 := by decide

theorem witness_StallHoldsEveryRegister :
    (mk none none (some 0x1#32) [lit false true 0x5#32 false, lit false true 0x6#32 false, lit false true 0x7#32 true]).stimulus =
      [lit false true 0x5#32 false, lit false true 0x6#32 false] ++ [lit false true 0x7#32 true] ∧
    (∀ r ∈ [lit false true 0x5#32 false, lit false true 0x6#32 false], r.rst = false ∧ r.outReadyWith true 0x1#32 = false) := by decide

theorem witness_ReadyInTheFirstCycleAfterReset :
    nextHas (step (mk (some 0x1#32) none none [lit true false 0x0#32 true, lit false true 0x9#32 false]))
      (fun t => t.inputs.rst = false ∧ t.inputs.inValid = true) = true := by decide

theorem witness_InputsDuringResetAreIgnored :
    (lit true true 0x3#32 true).rst = true ∧ (lit true false 0x0#32 false).rst = true := by decide

/-- A full pipeline that meets the invariant, with one result delivered, and a step from it. It serves EveryStepKeepsTheInvariant,
ValidStagesHoldTheirSeedsImage and AtMostThreeInFlight. -/
theorem witness_Inv_full_pipeline :
    State.Inv { mk (some 0x06071039#32) (some 0x00004002#32) (some 0x1000A001#32) [lit false false 0x0#32 true] with
      accepted := [0x0#32, 0x1#32, 0x2#32, 0x3039#32], delivered := [0x0#32] } ∧
    nextHas (step { mk (some 0x06071039#32) (some 0x00004002#32) (some 0x1000A001#32) [lit false false 0x0#32 true] with
      accepted := [0x0#32, 0x1#32, 0x2#32, 0x3039#32], delivered := [0x0#32] })
      (fun t => t.delivered = [0x0#32, 0x1000A001#32]) = true := by
  unfold State.Inv; decide

/-- A state with unrelated work in flight and reset asserted: EveryDeliveredWordIsTheTransformOfItsSeed. -/
theorem witness_EveryDeliveredWordIsTheTransformOfItsSeed :
    (mk (some 0x9#32) none (some 0x7#32) [lit true false 0x0#32 true, lit false true 0x1#32 true]).listing = [] ∧
    (mk (some 0x9#32) none (some 0x7#32) [lit true false 0x0#32 true, lit false true 0x1#32 true]).inputs.rst = true := by
  decide

/-- The four counts of advancing edges of TransactionMovesOneStagePerAdvance, with a stall before the third. -/
theorem witness_TransactionMovesOneStagePerAdvance :
    nextHas (step (mk none none none [lit false true 0x1#32 true, lit false false 0x0#32 true, lit false false 0x0#32 true,
        lit false false 0x0#32 false, lit false false 0x0#32 true]))
      (fun s1 => advancesIn 0 s1 = some 0 ∧ advancesIn 1 s1 = some 1 ∧ advancesIn 2 s1 = some 2 ∧ advancesIn 3 s1 = some 2 ∧
        advancesIn 4 s1 = some 3 ∧ nextHas (run 4 s1) (fun t => t.delivered = [0x1000A001#32])) = true := by decide

theorem witness_LatencyWithoutStallIsThreeCycles :
    (mk none none none [lit false true 0x1#32 false, lit false false 0x0#32 true, lit false true 0x7#32 true,
        lit false false 0x0#32 false]).accept
      (mk none none none [lit false true 0x1#32 false, lit false false 0x0#32 true, lit false true 0x7#32 true,
        lit false false 0x0#32 false]).inputs = some 0x1#32 ∧
    nextHas (run 3 (mk none none none [lit false true 0x1#32 false, lit false false 0x0#32 true, lit false true 0x7#32 true,
        lit false false 0x0#32 false])) (fun t => t.observe.outData = some 0x1000A001#32) = true := by decide

theorem witness_OneSeedIsAcceptedPerCycle :
    nextHas (run 3 (mk none none none ([0x1#32, 0x2#32, 0x3039#32].map Row.offer ++ [])))
      (fun t => t.inFlight = 3 ∧ t.stimulus = []) = true := by decide

/-- A row ready at all times, and one whose `out_ready` copies `out_valid`; LatencyWithoutStallIsThreeCycles too. -/
theorem witness_ThreeReadyCyclesDeliverEverythingInFlight :
    (∀ r ∈ [lit false true 0x1#32 true, Row.feedback, { Row.drain with outReady := .signal .outValid }],
      r.rst = false ∧ r.takesResults) ∧
    nextHas (run 3 (mk (some 0x06071039#32) (some 0x00004002#32) (some 0x1000A001#32)
        [lit false true 0x1#32 true, Row.drain, { Row.drain with outReady := .signal .outValid }]))
      (fun t => t.delivered = [0x1000A001#32, 0x20014002#32, 0x8F9A133A#32]) = true := by
  refine ⟨?_, by decide⟩
  intro r hr
  fin_cases hr <;> exact ⟨rfl, fun _ => rfl⟩

/-- `ITER 1` and `ITER 2` from an empty pipeline, the rows of the second as in program P2 of 95_test_vectors.md. -/
theorem witness_FeedbackChainTakesThreeCyclesPerResult :
    (mk none none none (iterStimulus 1 0x1#32)).inFlight = 0 ∧
    iterStimulus 1 0x1#32 = [Row.offer 0x1#32, Row.feedback, Row.feedback, Row.drain] ∧
    iterStimulus 2 0x1#32 = [Row.offer 0x1#32, Row.feedback, Row.feedback, Row.feedback, Row.feedback, Row.feedback, Row.drain] ∧
    (mk none none none (iterStimulus 2 0x1#32)).stimulus = iterStimulus 2 0x1#32 ++ [] := by decide

/-- A literal row, the feedback row, and a row whose `out_ready` needs a bit of `out_data` beside `out_valid`, are lawful. -/
theorem witness_lawful_rows :
    ∀ r ∈ [lit true true 0x3#32 true, Row.feedback,
        { Row.drain with outReady := .and (.signal .outValid) (.signal (.outDataBit 31)) }], r.usesOutDataLawfully := by
  intro r hr a b n
  fin_cases hr
  · exact ⟨rfl, rfl, fun _ => rfl⟩
  · exact ⟨rfl, rfl, fun h => by cases h⟩
  · exact ⟨rfl, rfl, fun h => by cases h⟩

/-- Two states that differ in the data of an invalid stage, with a lawful row: InvalidStageDataIsNeverObserved. -/
theorem witness_InvalidStageDataIsNeverObserved :
    State.AgreeOnValid (mk none none (some 0x1#32) [Row.feedback])
      { mk none none (some 0x1#32) [Row.feedback] with s1_d := 0xFFFFFFFF#32 } := by
  unfold State.AgreeOnValid; decide

/-- Two states with different registers and histories before a reset edge, with lawful rows: ResetErasesThePast. -/
theorem witness_ResetErasesThePast :
    (mk (some 0x1#32) none (some 0x2#32) [lit true true 0x3#32 true, Row.feedback]).stimulus =
      { mk none none none [lit true true 0x3#32 true, Row.feedback] with accepted := [0x9#32] }.stimulus ∧
    (mk (some 0x1#32) none (some 0x2#32) [lit true true 0x3#32 true, Row.feedback]).inputs.rst = true := by decide

/-- An index of a chain, a cycle without a listing, and two words that agree on bits 0 to 18: IterExpandsToTheChain,
NoOperationOrCycleStops and Xsl13LoadsStageOne. -/
theorem witness_small_hypotheses :
    0 < 1 ∧ State.reset.listing = [] ∧
    (0xFFF80001#32 : Word) <<< 13 = (0x00000001#32 : Word) <<< 13 := by decide

/-- Seeds for NonzeroChainNeverReachesZero and NonzeroChainHasFullPeriod. -/
theorem witness_nonzero_seeds : (0x1#32 : Word) ≠ 0#32 ∧ (0x80000000#32 : Word) ≠ 0#32 := by decide

end Sys2Proof.Machine
end

section
/-! PROOFS. The stage operations and their inverses (40_shift_xor_steps.md R72, 41_next_transform.md R87). -/

namespace Sys2Proof.Machine

/-- Undoing a left shift-xor: the shifts by one and two times `k` cancel in pairs, and the one by three times `k` leaves no
bit of the word. -/
theorem xorShifts_shiftXor_left {k : Nat} (h : 32 ≤ k + (k + k)) (x : Word) :
    shiftXor .left k x ^^^ shiftXor .left k x <<< k ^^^ shiftXor .left k x <<< (k + k) = x := by
  have hz : x <<< (k + (k + k)) = 0#32 := BitVec.shiftLeft_eq_zero h
  simp only [shiftXor, BitVec.shiftLeft_xor_distrib, ← BitVec.shiftLeft_add]
  grind

/-- The same cancellation in the other order. -/
theorem shiftXor_left_xorShifts {k : Nat} (h : 32 ≤ k + (k + k)) (y : Word) :
    shiftXor .left k (y ^^^ y <<< k ^^^ y <<< (k + k)) = y := by
  have hz : y <<< (k + (k + k)) = 0#32 := BitVec.shiftLeft_eq_zero h
  simp only [shiftXor, BitVec.shiftLeft_xor_distrib, ← BitVec.shiftLeft_add]
  grind

/-- A right shift-xor by at least half the word undoes itself. -/
theorem shiftXor_right_shiftXor_right {k : Nat} (h : 32 ≤ k + k) (x : Word) :
    shiftXor .right k (shiftXor .right k x) = x := by
  have hz : x >>> (k + k) = 0#32 := BitVec.ushiftRight_eq_zero h
  simp only [shiftXor, BitVec.ushiftRight_xor_distrib, ← BitVec.shiftRight_add]
  grind

@[simp] theorem xsl13Inv_xsl13 (x : Word) : xsl13Inv (xsl13 x) = x :=
  xorShifts_shiftXor_left (k := 13) (by decide) x

@[simp] theorem xsl13_xsl13Inv (y : Word) : xsl13 (xsl13Inv y) = y :=
  shiftXor_left_xorShifts (k := 13) (by decide) y

@[simp] theorem xsr17Inv_xsr17 (x : Word) : xsr17Inv (xsr17 x) = x :=
  shiftXor_right_shiftXor_right (k := 17) (by decide) x

@[simp] theorem xsr17_xsr17Inv (y : Word) : xsr17 (xsr17Inv y) = y :=
  shiftXor_right_shiftXor_right (k := 17) (by decide) y

@[simp] theorem xsl15Inv_xsl15 (x : Word) : xsl15Inv (xsl15 x) = x :=
  xorShifts_shiftXor_left (k := 15) (by decide) x

@[simp] theorem xsl15_xsl15Inv (y : Word) : xsl15 (xsl15Inv y) = y :=
  shiftXor_left_xorShifts (k := 15) (by decide) y

@[simp] theorem xorshift32Inv_xorshift32 (x : Word) : xorshift32Inv (xorshift32 x) = x := by
  simp [xorshift32Inv, xorshift32_eq]

@[simp] theorem xorshift32_xorshift32Inv (y : Word) : xorshift32 (xorshift32Inv y) = y := by
  simp [xorshift32Inv, xorshift32_eq]

end Sys2Proof.Machine
end

section
/-! PROOFS. Every step keeps the invariant. -/

namespace Sys2Proof.Machine

/-- After a reset edge nothing is pending (70_reset_and_hazards.md R127). -/
@[simp] theorem State.clear_pendingResults (s : State) : s.clear.pendingResults = [] := rfl

@[simp] theorem State.nextCycle_pendingResults (s : State) : s.nextCycle.pendingResults = s.pendingResults := rfl

/-- A clock cycle keeps the invariant, whatever its inputs. -/
theorem State.Inv.clockCycle {s : State} (h : s.Inv) (p : Inputs) : (s.clockCycle p).Inv := by
  obtain ⟨hlist, hist⟩ := h
  refine ⟨by rw [State.clockCycle_listing, hlist], ?_⟩
  rcases s.clockCycle_cases p with ⟨-, hreset⟩ | ⟨hrst, hadv, -⟩ | ⟨-, -, hstall⟩
  · simp [hreset]
  · obtain ⟨hacc, hdel⟩ := State.clockCycle_history hrst
    calc (s.clockCycle p).delivered ++ (s.clockCycle p).pendingResults
        = s.delivered ++ ((s.deliver p).toList ++ (s.clockCycle p).pendingResults) := by
          rw [hdel, List.append_assoc]
      _ = s.delivered ++ s.pendingResults ++ (s.accept p).toList.map xorshift32 := by
          rw [State.clockCycle_pending hrst hadv, List.append_assoc]
      _ = (s.clockCycle p).accepted.map xorshift32 := by
          rw [hist, hacc, List.map_append]
  · simp [hstall, hist]

/-- Settles O36: a step from a state without a listing is a clock cycle, and a clock cycle keeps the invariant. -/
theorem everyStepKeepsTheInvariant : Obligations.EveryStepKeepsTheInvariant := by
  intro s t h hstep
  rcases step_cases hstep with ⟨-, rfl⟩ | ⟨d, ds, k, i, hcons, -⟩
  · exact h.clockCycle s.inputs
  · obtain ⟨hlist, -⟩ := h
    simp [hlist] at hcons

end Sys2Proof.Machine
end

section
/-! PROOFS. What the valid stages hold. -/

namespace Sys2Proof.Machine

/-- The transform's inverse reads each pending result back to its seed. -/
theorem State.map_xorshift32Inv_pendingResults (s : State) :
    s.pendingResults.map xorshift32Inv = s.seedsInFlight := by
  simp [State.pendingResults, State.seedsInFlight, xorshift32Inv, apply_ite (List.map _)]

/-- Under the invariant the seeds in flight are the accepted ones not yet delivered (10_state.md R22). -/
theorem State.Inv.seedsInFlight_eq {s : State} (h : s.Inv) :
    s.seedsInFlight = s.accepted.drop s.delivered.length := by
  obtain ⟨-, hist⟩ := h
  have hpending : s.pendingResults = (s.accepted.drop s.delivered.length).map xorshift32 := by
    rw [List.map_drop, ← hist, List.drop_left]
  have hinv : xorshift32Inv ∘ xorshift32 = id := funext xorshift32Inv_xorshift32
  rw [← s.map_xorshift32Inv_pendingResults, hpending, List.map_map, hinv, List.map_id]

/-- Stage 3's seed is the oldest in flight. -/
theorem State.seedsInFlight_stage3 {s : State} (h : s.s3_v = true) :
    s.seedsInFlight[0]? = some (xorshift32Inv s.s3_d) := by
  simp [State.seedsInFlight, h]

/-- Stage 2's seed is behind stage 3's, if stage 3 is valid. -/
theorem State.seedsInFlight_stage2 {s : State} (h : s.s2_v = true) :
    s.seedsInFlight[s.s3_v.toNat]? = some (xsl13Inv (xsr17Inv s.s2_d)) := by
  cases h3 : s.s3_v <;> simp [State.seedsInFlight, h, h3]

/-- Stage 1's seed is behind those of the valid stages after it. -/
theorem State.seedsInFlight_stage1 {s : State} (h : s.s1_v = true) :
    s.seedsInFlight[s.s3_v.toNat + s.s2_v.toNat]? = some (xsl13Inv s.s1_d) := by
  cases h3 : s.s3_v <;> cases h2 : s.s2_v <;> simp [State.seedsInFlight, h, h2, h3]

/-- Settles O37: the seed of a valid stage is the one its data word reads back to, and the stage operations bring that seed
to the data word again. -/
theorem validStagesHoldTheirSeedsImage : Obligations.ValidStagesHoldTheirSeedsImage := by
  intro s h
  rw [← h.seedsInFlight_eq]
  refine ⟨rfl, fun hv => ⟨_, State.seedsInFlight_stage3 hv, ?_⟩, fun hv => ⟨_, State.seedsInFlight_stage2 hv, ?_⟩,
    fun hv => ⟨_, State.seedsInFlight_stage1 hv, ?_⟩⟩
  · exact (xorshift32_xorshift32Inv s.s3_d).symm
  · rw [xsl13_xsl13Inv, xsr17_xsr17Inv]
  · rw [xsl13_xsl13Inv]

end Sys2Proof.Machine
end

section
/-! PROOFS. States that agree on their valid stages go on agreeing, and show the caller the same.

The two states share `drawIndex`, so both draw the same word for `out_data` while `out_valid = 0` (log 6). The caller thus
drives the same in both, and the premise on `usesOutDataLawfully` is not needed. -/

namespace Sys2Proof.Machine

/-- A result is offered only while stage 3 holds one (42_pipeline_protocol.md R95). -/
theorem State.s3_v_of_outValid {s : State} {rst : Bool} (h : s.outValid rst = true) : s.s3_v = true :=
  (Bool.and_eq_true_iff.mp h).1

section
variable {s t : State} (h : s.AgreeOnValid t)
include h

theorem State.AgreeOnValid.listing_eq : s.listing = t.listing := by
  obtain ⟨-, -, -, -, -, -, -, -, -, hlist, -⟩ := h
  exact hlist

theorem State.AgreeOnValid.drawIndex_eq : s.drawIndex = t.drawIndex := by
  obtain ⟨-, -, -, -, -, -, -, -, -, -, hdraw⟩ := h
  exact hdraw

/- What the caller sees in one cycle -/

theorem State.AgreeOnValid.outValid_eq (rst : Bool) : s.outValid rst = t.outValid rst := by
  obtain ⟨-, -, h3v, -⟩ := h
  simp only [State.outValid, h3v]

theorem State.AgreeOnValid.outData_eq (rst : Bool) : s.outData rst = t.outData rst := by
  have hv := h.outValid_eq rst
  have hdraw := h.drawIndex_eq
  obtain ⟨-, -, -, -, -, h3d, -⟩ := h
  cases hs : s.outValid rst with
  | true =>
    rw [State.outData_of_outValid hs, State.outData_of_outValid (hv ▸ hs), h3d (State.s3_v_of_outValid hs)]
  | false => simp [State.outData, ← hv, hs, hdraw]

theorem State.AgreeOnValid.adv_eq (outReady : Bool) : s.adv outReady = t.adv outReady := by
  obtain ⟨-, -, h3v, -⟩ := h
  simp only [State.adv, h3v]

theorem State.AgreeOnValid.inReady_eq (rst outReady : Bool) : s.inReady rst outReady = t.inReady rst outReady := by
  simp only [State.inReady, h.adv_eq]

/-- The caller drives the same in both, since every signal its row may name is the same. -/
theorem State.AgreeOnValid.inputs_eq : s.inputs = t.inputs := by
  have hrow (r : Row) : r.inputs s = r.inputs t := by
    simp only [Row.inputs, h.outValid_eq, h.outData_eq, h.inReady_eq, h.drawIndex_eq]
  obtain ⟨-, -, -, -, -, -, -, -, hstim, -, hdraw⟩ := h
  simp only [State.inputs, hstim, hdraw, hrow]

theorem State.AgreeOnValid.observe_eq : s.observe = t.observe := by
  simp only [State.observe, h.inputs_eq, h.outValid_eq, h.outData_eq, h.inReady_eq]

theorem State.AgreeOnValid.accept_eq (p : Inputs) : s.accept p = t.accept p := by
  simp only [State.accept, h.inReady_eq]

theorem State.AgreeOnValid.deliver_eq (p : Inputs) : s.deliver p = t.deliver p := by
  simp only [State.deliver, h.outValid_eq, h.outData_eq]

/- What the cycle does -/

theorem State.AgreeOnValid.clear : s.clear.AgreeOnValid t.clear := by
  obtain ⟨-, -, -, -, -, -, -, -, hstim, hlist, hdraw⟩ := h
  exact ⟨rfl, rfl, rfl, nofun, nofun, nofun, rfl, rfl, hstim, hlist, hdraw⟩

theorem State.AgreeOnValid.record (p : Inputs) : (s.record p).AgreeOnValid (t.record p) := by
  have ha := h.accept_eq p
  have hd := h.deliver_eq p
  obtain ⟨h1v, h2v, h3v, h1d, h2d, h3d, hacc, hdel, hrest⟩ := h
  exact ⟨h1v, h2v, h3v, h1d, h2d, h3d, by simp [hacc, ha], by simp [hdel, hd], hrest⟩

/-- A stage that is valid after an advancing edge was loaded from a valid one, where the two agree. -/
theorem State.AgreeOnValid.advance (p : Inputs) : (s.advance p).AgreeOnValid (t.advance p) := by
  obtain ⟨h1v, h2v, -, h1d, h2d, -, hacc, hdel, hstim, hlist, hdraw⟩ := h
  refine ⟨rfl, h1v, h2v, fun hv => ?_, fun hv => ?_, fun hv => ?_, hacc, hdel, hstim, hlist, hdraw⟩
  · simp [hdraw]
  · rw [State.advance_s2_v] at hv
    simp [← h1v, hv, h1d hv]
  · rw [State.advance_s3_v] at hv
    simp [← h2v, hv, h2d hv]

theorem State.AgreeOnValid.nextCycle : s.nextCycle.AgreeOnValid t.nextCycle := by
  obtain ⟨h1v, h2v, h3v, h1d, h2d, h3d, hacc, hdel, hstim, hlist, hdraw⟩ := h
  exact ⟨h1v, h2v, h3v, h1d, h2d, h3d, hacc, hdel, by simp [hstim], hlist, by simp [hdraw]⟩

theorem State.AgreeOnValid.edge (p : Inputs) : (s.edge p).AgreeOnValid (t.edge p) := by
  have hadv := h.adv_eq p.outReady
  cases hr : p.rst with
  | true =>
    rw [State.edge_of_rst hr, State.edge_of_rst hr]
    exact h.clear
  | false =>
    cases ha : s.adv p.outReady with
    | true =>
      rw [State.edge_of_adv hr ha, State.edge_of_adv hr (hadv ▸ ha)]
      exact (h.record p).advance p
    | false =>
      rw [State.edge_of_stall hr ha, State.edge_of_stall hr (hadv ▸ ha)]
      exact h

/-- One clock cycle, each state under its own caller, keeps the agreement. -/
theorem State.AgreeOnValid.clockCycle :
    (s.clockCycle s.inputs).AgreeOnValid (t.clockCycle t.inputs) := by
  rw [← h.inputs_eq]
  exact (h.edge s.inputs).nextCycle

end

/-- Any number of cycles keeps the agreement. -/
theorem State.AgreeOnValid.run (n : Nat) {s t : State} (h : s.AgreeOnValid t) (hlist : s.listing = []) :
    ∃ s' t', run n s = .next s' ∧ run n t = .next t' ∧ s'.AgreeOnValid t' := by
  induction n generalizing s t with
  | zero => exact ⟨s, t, rfl, rfl, h⟩
  | succ n ih =>
    have ht : t.listing = [] := h.listing_eq ▸ hlist
    rw [run_succ_of_listing_nil hlist, run_succ_of_listing_nil ht]
    exact ih h.clockCycle (by rw [State.clockCycle_listing, hlist])

/-- Settles O46: the agreement is kept by every cycle, and states that agree give the same observation. -/
theorem invalidStageDataIsNeverObserved : Obligations.InvalidStageDataIsNeverObserved := by
  intro n s t h hlist _
  obtain ⟨s', t', hs, ht, h'⟩ := h.run n hlist
  exact ⟨s', t', hs, ht, h', h'.observe_eq⟩

end Sys2Proof.Machine
end

section
/-! PROOFS. The seeds in flight form a first-in first-out queue (20_memory.md R43, R44, 42_pipeline_protocol.md R105). -/

namespace Sys2Proof.Machine

/-- A stalled cycle accepts nothing (42_pipeline_protocol.md R99). -/
theorem State.accept_of_stall {s : State} {p : Inputs} (ha : s.adv p.outReady = false) : s.accept p = none := by
  simp [State.accept, State.inReady, ha]

/-- A stalled cycle delivers nothing, since the caller does not take the result (42_pipeline_protocol.md R100). -/
theorem State.deliver_of_stall {s : State} {p : Inputs} (ha : s.adv p.outReady = false) : s.deliver p = none := by
  have ⟨_, ho⟩ : s.s3_v = true ∧ p.outReady = false := by simpa [State.adv] using ha
  simp [State.deliver, ho]

@[simp] theorem State.clear_seedsInFlight (s : State) : s.clear.seedsInFlight = [] := rfl

@[simp] theorem State.nextCycle_seedsInFlight (s : State) : s.nextCycle.seedsInFlight = s.seedsInFlight := rfl

theorem State.clockCycle_seedsInFlight_of_rst {s : State} {p : Inputs} (h : p.rst = true) :
    (s.clockCycle p).seedsInFlight = [] := by
  simp [State.clockCycle, State.edge_of_rst h]

/-- A delivered word is stage 3's, so it reads back to the front of the queue. -/
theorem State.seedsInFlight_eq_cons_of_deliver {s : State} {p : Inputs} {r : Word} (h : s.deliver p = some r) :
    s.seedsInFlight = xorshift32Inv r :: s.seedsInFlight.tail := by
  obtain ⟨⟨hv, -⟩, hr⟩ : (s.outValid p.rst = true ∧ p.outReady = true) ∧ s.outData p.rst = r := by
    simpa [State.deliver] using h
  have hfront := State.seedsInFlight_stage3 (State.s3_v_of_outValid hv)
  rw [← State.outData_of_outValid hv, hr] at hfront
  exact List.eq_cons_of_mem_head? (by simpa [List.head?_eq_getElem?] using hfront)

/-- Without a reset, what leaves the queue in front and what is in it afterwards are what was in it and what enters behind:
the same balance as for the pending results, read back through the inverse of the transform. -/
theorem State.clockCycle_seedsInFlight {s : State} {p : Inputs} (h : p.rst = false) :
    (s.deliver p).toList.map xorshift32Inv ++ (s.clockCycle p).seedsInFlight =
      s.seedsInFlight ++ (s.accept p).toList := by
  cases ha : s.adv p.outReady with
  | true =>
    have hbalance := congrArg (List.map xorshift32Inv) (State.clockCycle_pending h ha)
    have hinv : xorshift32Inv ∘ xorshift32 = id := funext xorshift32Inv_xorshift32
    simpa only [List.map_append, List.map_map, hinv, List.map_id, State.map_xorshift32Inv_pendingResults] using hbalance
  | false =>
    rw [State.clockCycle, State.edge_of_stall h ha, State.accept_of_stall ha, State.deliver_of_stall ha]
    simp

/-- The balance solved for the queue after the cycle: its front is off if a result was delivered. -/
theorem State.clockCycle_seedsInFlight_eq {s : State} {p : Inputs} (h : p.rst = false) :
    (s.clockCycle p).seedsInFlight =
      (if (s.deliver p).isSome then s.seedsInFlight.tail else s.seedsInFlight) ++ (s.accept p).toList := by
  have hbalance := State.clockCycle_seedsInFlight (s := s) h
  cases hd : s.deliver p with
  | none => simpa [hd] using hbalance
  | some r =>
    rw [hd, State.seedsInFlight_eq_cons_of_deliver hd] at hbalance
    simpa using hbalance

/-- Settles O40: a reset edge empties the queue, any other cycle keeps the balance of seeds, and a delivered word is the
transform of the seed that it reads back to. -/
theorem pipelineRefinesAQueueOfSeeds : Obligations.PipelineRefinesAQueueOfSeeds := by
  intro s hlist
  refine ⟨⟨_, step_of_listing_nil hlist, ?_⟩, fun r hd =>
    ⟨_, _, State.seedsInFlight_eq_cons_of_deliver hd, (xorshift32_xorshift32Inv r).symm⟩⟩
  cases hr : s.inputs.rst with
  | true => exact State.clockCycle_seedsInFlight_of_rst hr
  | false => exact State.clockCycle_seedsInFlight_eq hr

end Sys2Proof.Machine
end

section
/-! PROOFS. The decoder and the encoder (30_encoding.md R55 to R59). -/

namespace Sys2Proof

/-- A stage accepts a descriptor exactly if a row of the table of 30_encoding.md R57 says so. -/
theorem decodeDesc_eq_ok_iff_exists_row {k : Stage} {d : Descriptor} {i : Instr} :
    decodeDesc k d = .ok i ↔ ∃ r ∈ descTable, k = r.stage ∧ d = r.value ∧ i = r.op := by
  constructor
  · intro h
    unfold decodeDesc at h
    cases hrow : descRow d with
    | none => simp [hrow] at h
    | some r =>
      obtain ⟨hmem, hval⟩ := descRow_eq_some hrow
      simp only [hrow] at h
      split at h
      next hk => exact ⟨r, hmem, hk.symm, hval, (Except.ok.inj h).symm⟩
      next => cases h
  · rintro ⟨r, hmem, rfl, rfl, rfl⟩
    fin_cases hmem <;> rfl

/-- The three rows written out: 0x0D in stage 1, 0x31 in stage 2, 0x0F in stage 3. -/
theorem decodeDesc_eq_ok_iff {k : Stage} {d : Descriptor} {i : Instr} :
    decodeDesc k d = .ok i ↔
      (k = .s1 ∧ d = 0x0D#6 ∧ i = .xsl13) ∨ (k = .s2 ∧ d = 0x31#6 ∧ i = .xsr17) ∨
        (k = .s3 ∧ d = 0x0F#6 ∧ i = .xsl15) := by
  simp [decodeDesc_eq_ok_iff_exists_row, descTable]

@[simp] theorem decode_port (w : Word) : decode (.port w) = .ok (.next w) := rfl

@[simp] theorem decode_desc (k : Stage) (d : Descriptor) : decode (.desc k d) = decodeDesc k d := rfl

/-- Decoding inverts encoding, for every operand. -/
@[simp] theorem decode_encode (i : Instr) : decode (encode i) = .ok i := by
  cases i <;> rfl

/-- What decodes is an encoding: the decoder accepts no second word for an operation. -/
theorem eq_encode_of_decode_eq_ok {c : CodeWord} {i : Instr} (h : decode c = .ok i) : c = encode i := by
  cases c with
  | port w =>
    cases h
    rfl
  | desc k d => rcases decodeDesc_eq_ok_iff.mp h with ⟨rfl, rfl, rfl⟩ | ⟨rfl, rfl, rfl⟩ | ⟨rfl, rfl, rfl⟩ <;> rfl

/-- Settles O3: decoding inverts encoding, and what decodes is an encoding. -/
theorem decodeAcceptsExactlyTheEncodings : Obligations.DecodeAcceptsExactlyTheEncodings :=
  fun _ i => ⟨eq_encode_of_decode_eq_ok, fun h => h ▸ decode_encode i⟩

/-- The stage that takes a descriptor performs the shift-xor that the descriptor's fields name (30_encoding.md R57). -/
theorem stageOp_eq_shiftXor_of_decodeDesc {k : Stage} {d : Descriptor} {i : Instr} (h : decodeDesc k d = .ok i)
    (x : Word) : Machine.stageOp k x = Machine.shiftXor d.dir d.amt x := by
  rcases decodeDesc_eq_ok_iff.mp h with ⟨rfl, rfl, -⟩ | ⟨rfl, rfl, -⟩ | ⟨rfl, rfl, -⟩ <;> rfl

/-- Settles O2: the three rows by evaluation, and every descriptor that a stage takes is one of them. -/
theorem stageDescriptorsNameTheirShifts : Obligations.StageDescriptorsNameTheirShifts :=
  ⟨by decide, by decide, by decide, fun _ _ _ x h => stageOp_eq_shiftXor_of_decodeDesc h x⟩

/-- Settles O1: a port word is the operand itself, and its operation is one clock cycle, which always has a next state. -/
theorem everyPortWordIsALegalNext : Obligations.EveryPortWordIsALegalNext :=
  ⟨decode_port, fun _ _ => ⟨_, rfl⟩, by decide⟩

end Sys2Proof
end

section
/-! PROOFS. Datapath listings, and the step that runs what the decoder reads (30_encoding.md R59, R60). -/

namespace Sys2Proof.Machine

/-- The turn goes by the count of descriptors left: stage 1 with three, stage 2 with two, stage 3 with one (log 10). -/
theorem stageWithRemaining_eq_some_iff {n : Nat} {k : Stage} :
    stageWithRemaining n = some k ↔ (n = 3 ∧ k = .s1) ∨ (n = 2 ∧ k = .s2) ∨ (n = 1 ∧ k = .s3) := by
  unfold stageWithRemaining
  split <;> simp_all [eq_comm]

@[simp] theorem decodeListingRest_nil : decodeListingRest [] = .ok [] := rfl

/-- A listing decodes exactly if its first descriptor decodes in its turn and the rest of it decodes. -/
theorem decodeListingRest_cons_eq_ok_iff {d : Descriptor} {ds : List Descriptor} {is : List Instr} :
    decodeListingRest (d :: ds) = .ok is ↔
      ∃ k i js, stageWithRemaining (ds.length + 1) = some k ∧ decodeDesc k d = .ok i ∧
        decodeListingRest ds = .ok js ∧ is = i :: js := by
  rw [decodeListingRest]
  cases hturn : stageWithRemaining (ds.length + 1) with
  | none => simp
  | some k =>
    cases hdec : decodeDesc k d with
    | error r => simp [hdec]
    | ok i => cases hrest : decodeListingRest ds <;> simp [hdec, eq_comm]

/-- A whole listing decodes only as the three descriptors in the order of their stages. -/
theorem decodeListing_eq_ok_iff {ds : List Descriptor} {is : List Instr} :
    decodeListing ds = .ok is ↔ ds = [0x0D#6, 0x31#6, 0x0F#6] ∧ is = [.xsl13, .xsr17, .xsl15] := by
  constructor
  · intro h
    by_cases hlen : ds.length = 3
    · obtain ⟨a, b, c, rfl⟩ := List.length_eq_three.mp hlen
      simpa [decodeListing, decodeListingRest_cons_eq_ok_iff, stageWithRemaining, decodeDesc_eq_ok_iff, and_assoc]
        using h
    · simp [decodeListing, hlen] at h
  · rintro ⟨rfl, rfl⟩
    decide

/-- A descriptor that decodes in its turn is taken off the listing and executed. -/
theorem step_of_decodeDesc {s : State} {d : Descriptor} {ds : List Descriptor} {k : Stage} {i : Instr}
    (hlist : s.listing = d :: ds) (hturn : stageWithRemaining (ds.length + 1) = some k) (hdec : decodeDesc k d = .ok i) :
    step s = exec i s.afterFetch := by
  simp [step_of_listing_cons hlist, hturn, hdec]

/-- A listing whose first descriptor decodes in no turn that it can have is refused. -/
theorem exists_step_eq_refused {s : State} {d : Descriptor} {ds : List Descriptor} (hlist : s.listing = d :: ds)
    (hno : ∀ k i, stageWithRemaining (ds.length + 1) = some k → decodeDesc k d ≠ .ok i) :
    ∃ r, step s = .refused r := by
  cases hturn : stageWithRemaining (ds.length + 1) with
  | none => simp [step_of_listing_cons hlist, hturn]
  | some k =>
    cases hdec : decodeDesc k d with
    | ok i => exact absurd hdec (hno k i hturn)
    | error r => simp [step_of_listing_cons hlist, hturn, hdec]

/-- Settles O4: the decoders through the three rows of the table, the count by evaluation, and a step because a descriptor
that decodes in its turn is one of the three that the hypotheses exclude. -/
theorem reservedDescriptorsAreRefused : Obligations.ReservedDescriptorsAreRefused := by
  refine ⟨fun k d => ?_, by decide, fun _ _ => decodeListing_eq_ok_iff, fun s d ds hlist h1 h2 h3 => ?_⟩
  · simp [decodeDesc_eq_ok_iff, exists_or]
  · refine exists_step_eq_refused hlist fun k i hturn hdec => ?_
    rcases decodeDesc_eq_ok_iff.mp hdec with ⟨rfl, rfl, -⟩ | ⟨rfl, rfl, -⟩ | ⟨rfl, rfl, -⟩ <;>
      simp_all [stageWithRemaining_eq_some_iff]

/-- A word that the caller offers with no listing before it is the operand of the step's `NEXT`. -/
theorem step_of_offered_word {s : State} (hlist : s.listing = []) (hv : s.inputs.inValid = true) :
    step s = exec (.next s.inputs.inData) s := by
  rw [step_of_listing_nil hlist, exec, execNext, Inputs.offering_self hv]

/-- Settles O5: one lemma for each thing that a step can have before it. -/
theorem stepRunsTheDecodedOperation : Obligations.StepRunsTheDecodedOperation := by
  refine ⟨fun s i hlist hv hdec => ?_, fun s d ds k i hlist hturn hdec => ?_, fun s hlist _ => step_of_listing_nil hlist⟩
  · cases hdec
    exact step_of_offered_word hlist hv
  · have hafter : s.afterFetch = { s with listing := ds } := by rw [State.afterFetch, hlist, List.tail_cons]
    rw [step_of_decodeDesc hlist hturn hdec, hafter]

/-- A table word that decodes to an operation is that operation's encoding. -/
theorem tableCodeWord_of_decodeTableWord {nbits w : Nat} {i : Instr} (h : decodeTableWord nbits w = some i) :
    tableCodeWord nbits w = some (encode i) := by
  unfold decodeTableWord at h
  cases hc : tableCodeWord nbits w with
  | none => simp [hc] at h
  | some c =>
    cases hdec : decode c with
    | error r => simp [hc, hdec] at h
    | ok j =>
      obtain rfl : j = i := by simpa [hc, hdec] using h
      rw [eq_encode_of_decode_eq_ok hdec]

/-- An operation placed by its encoding is what the next step runs (log 14): `NEXT` is offered by the new first row, and a stage
operation begins a listing that gives its stage the turn. -/
theorem step_placeCode_encode (s : State) (i : Instr) :
    step (s.placeCode (encode i)) = exec i (s.placeCode (encode i)).afterFetch := by
  cases i with
  | next seed =>
    have hlist : (s.placeCode (encode (.next seed))).listing = [] := rfl
    rw [State.afterFetch_of_listing_nil _ hlist]
    exact step_of_offered_word hlist rfl
  | xsl13 => exact step_of_decodeDesc (ds := [0x31#6, 0x0F#6]) (k := .s1) rfl rfl rfl
  | xsr17 => exact step_of_decodeDesc (ds := [0x0F#6]) (k := .s2) rfl rfl rfl
  | xsl15 => exact step_of_decodeDesc (ds := []) (k := .s3) rfl rfl rfl

/-- Settles O6: a table word that decodes places the encoding of its operation. -/
theorem placedTableWordRunsNext : Obligations.PlacedTableWordRunsNext := by
  intro s nbits w i h
  have hplace : s.withFetchWord nbits w = s.placeCode (encode i) := by
    rw [State.withFetchWord, tableCodeWord_of_decodeTableWord h]
  rw [hplace, step_placeCode_encode]

end Sys2Proof.Machine
end

section
/-! PROOFS. The chain of `ITER` (30_encoding.md R63). -/

namespace Sys2Proof.Machine

theorem iterSeeds_eq_iterate (n : Nat) (seed : Word) : iterSeeds n seed = List.iterate xorshift32 seed n := by
  induction n generalizing seed with
  | zero => rfl
  | succ n ih => rw [iterSeeds, ih, List.iterate]

/-- The results are the chain one transform later. -/
theorem iterResults_eq_iterate (n : Nat) (seed : Word) :
    iterResults n seed = List.iterate xorshift32 (xorshift32 seed) n := by
  induction n generalizing seed with
  | zero => rfl
  | succ n ih => rw [iterResults, ih, List.iterate]

/-- A script line expands to `NEXT` transactions only (30_encoding.md R62). -/
theorem wellFormedScript_expand (line : ScriptLine) : wellFormedScript line.expand = true := by
  cases line <;> simp [wellFormedScript, ScriptLine.expand, Instr.wellFormedAt, Instr.place]

/-- Settles O23: both lists are iterates of the transform, the results from the first result on. -/
theorem iterExpandsToTheChain : Obligations.IterExpandsToTheChain := by
  intro n seed
  rw [iterSeeds_eq_iterate, iterResults_eq_iterate]
  refine ⟨List.length_iterate .., List.length_iterate .., fun j hj => List.getElem?_iterate _ _ n j hj,
    fun j hj => ?_, by rw [ScriptLine.expand, iterSeeds_eq_iterate], wellFormedScript_expand _⟩
  rw [List.getElem?_iterate _ _ n j hj, Function.iterate_succ_apply]

end Sys2Proof.Machine
end

section
/-! PROOFS. Every function of a cycle's outputs has an expression (30_encoding.md R64, log 22). -/

namespace Sys2Proof.Machine

/-- Shannon's expansion: what holds of the constant functions of some signals, and of a choice by one signal between two
functions that have it, holds of every function that depends on finitely many signals only. -/
theorem forall_of_const_of_choice {σ α : Type} [DecidableEq σ] {P : ((σ → Bool) → α) → Prop}
    (hconst : ∀ a, P fun _ => a) (hchoice : ∀ x f g, P f → P g → P fun v => if v x then f v else g v)
    (xs : List σ) (f : (σ → Bool) → α) (hf : ∀ v w, (∀ x ∈ xs, v x = w x) → f v = f w) : P f := by
  induction xs generalizing f with
  | nil =>
    have hcst : f = fun _ => f fun _ => false := funext fun v => hf v _ (by simp)
    exact hcst ▸ hconst _
  | cons x xs ih =>
    have hfix (b : Bool) : P fun v => f (Function.update v x b) := by
      refine ih _ fun v w hvw => hf _ _ fun y hy => ?_
      by_cases hyx : y = x
      · simp [hyx]
      · simpa [hyx] using hvw y ((List.mem_cons.mp hy).resolve_left hyx)
    have hsplit : f = fun v => if v x then f (Function.update v x true) else f (Function.update v x false) := by
      funext v
      cases hx : v x <;> simp [← hx]
    exact hsplit ▸ hchoice x _ _ (hfix true) (hfix false)

/-- With a list of all signals every one-bit function of the signals is the value of an expression. -/
theorem BitDrive.exists_eval_eq {σ : Type} [DecidableEq σ] {xs : List σ} (hxs : ∀ x, x ∈ xs) (f : (σ → Bool) → Bool) :
    ∃ e : BitDrive σ, ∀ v, e.eval v = f v := by
  refine forall_of_const_of_choice (P := fun f => ∃ e : BitDrive σ, ∀ v, e.eval v = f v)
    (fun b => ⟨.level b, fun _ => rfl⟩) ?_ xs f fun v w h => congrArg f (funext fun x => h x (hxs x))
  rintro x f g ⟨e, he⟩ ⟨e', he'⟩
  refine ⟨.or (.and (.signal x) e) (.and (.not (.signal x)) e'), fun v => ?_⟩
  cases hx : v x <;> simp [hx, he, he']

/-- All signals that `out_ready` may name. -/
def ReadySignal.all : List ReadySignal := .outValid :: (List.finRange 32).map .outDataBit

theorem ReadySignal.mem_all (x : ReadySignal) : x ∈ ReadySignal.all := by
  cases x <;> simp [ReadySignal.all]

/-- All signals that `in_valid` and `in_data` may name. -/
def OfferSignal.all : List OfferSignal := .inReady :: .outValid :: (List.finRange 32).map .outDataBit

theorem OfferSignal.mem_all (x : OfferSignal) : x ∈ OfferSignal.all := by
  cases x <;> simp [OfferSignal.all]

/-- Every function of the signals to words is the value of an expression for `in_data`. -/
theorem DataDrive.exists_eval_eq (f : (OfferSignal → Bool) → Word) :
    ∃ e : DataDrive, ∀ v outData n, e.eval v outData n = f v := by
  refine forall_of_const_of_choice (P := fun f => ∃ e : DataDrive, ∀ v outData n, e.eval v outData n = f v)
    (fun w => ⟨.word w, fun _ _ _ => rfl⟩) ?_ OfferSignal.all f
    fun v w h => congrArg f (funext fun x => h x (OfferSignal.mem_all x))
  rintro x f g ⟨e, he⟩ ⟨e', he'⟩
  exact ⟨.mux (.signal x) e e', fun v outData n => by simp [he, he']⟩

/-- The bits of a word are the word. -/
theorem ofFnLE_getLsbD (w : Word) : (BitVec.ofFnLE fun i : Fin 32 => w.getLsbD i) = w :=
  BitVec.eq_of_getLsbD_eq fun i hi => by simp [hi]

/-- An expression for every function of `out_valid` and `out_data`. -/
theorem exists_outReady_eq (ready : Bool → Word → Bool) :
    ∃ e : BitDrive ReadySignal, ∀ outValid outData, e.eval (ReadySignal.value outValid outData) = ready outValid outData := by
  obtain ⟨e, he⟩ := BitDrive.exists_eval_eq ReadySignal.mem_all fun v =>
    ready (v .outValid) (BitVec.ofFnLE fun i => v (.outDataBit i))
  exact ⟨e, fun outValid outData => by simp only [he, ReadySignal.value, ofFnLE_getLsbD]⟩

/-- An expression for every one-bit function of `in_ready`, `out_valid` and `out_data`. -/
theorem exists_inValid_eq (valid : Bool → Bool → Word → Bool) :
    ∃ e : BitDrive OfferSignal, ∀ inReady outValid outData,
      e.eval (OfferSignal.value inReady outValid outData) = valid inReady outValid outData := by
  obtain ⟨e, he⟩ := BitDrive.exists_eval_eq OfferSignal.mem_all fun v =>
    valid (v .inReady) (v .outValid) (BitVec.ofFnLE fun i => v (.outDataBit i))
  exact ⟨e, fun inReady outValid outData => by simp only [he, OfferSignal.value, ofFnLE_getLsbD]⟩

/-- An expression for every word that is a function of `in_ready`, `out_valid` and `out_data`. -/
theorem exists_inData_eq (data : Bool → Bool → Word → Word) :
    ∃ e : DataDrive, ∀ inReady outValid outData n,
      e.eval (OfferSignal.value inReady outValid outData) outData n = data inReady outValid outData := by
  obtain ⟨e, he⟩ := DataDrive.exists_eval_eq fun v =>
    data (v .inReady) (v .outValid) (BitVec.ofFnLE fun i => v (.outDataBit i))
  exact ⟨e, fun inReady outValid outData n => by simp only [he, OfferSignal.value, ofFnLE_getLsbD]⟩

/-- Settles O48: the row of the three expressions. -/
theorem stimulusRowsNameEveryFunctionOfTheOutputs : Obligations.StimulusRowsNameEveryFunctionOfTheOutputs := by
  intro rst ready valid data
  obtain ⟨outReady, hready⟩ := exists_outReady_eq ready
  obtain ⟨inValid, hvalid⟩ := exists_inValid_eq valid
  obtain ⟨inData, hdata⟩ := exists_inData_eq data
  refine ⟨{ rst, inValid, inData, outReady }, fun s => ?_⟩
  simp only [Row.inputs, Row.outReadyWith, Row.inValidWith, Row.inDataWith, hready, hvalid, hdata]

end Sys2Proof.Machine
end

section
/-! PROOFS. The shift-xor primitive as a number, bit by bit and over GF(2) (40_shift_xor_steps.md R65, R71). -/

namespace Sys2Proof.Machine

/- As a number -/

theorem toNat_shiftXor_left (k : Nat) (x : Word) :
    (shiftXor .left k x).toNat = (x.toNat ^^^ (x.toNat * 2 ^ k)) % 2 ^ 32 := by
  rw [shiftXor, BitVec.toNat_xor, BitVec.toNat_shiftLeft, Nat.shiftLeft_eq, Nat.xor_mod_two_pow, Nat.mod_eq_of_lt x.isLt]

theorem toNat_shiftXor_right (k : Nat) (x : Word) :
    (shiftXor .right k x).toNat = x.toNat ^^^ (x.toNat / 2 ^ k) := by
  rw [shiftXor, BitVec.toNat_xor, BitVec.toNat_ushiftRight, Nat.shiftRight_eq_div_pow]

/- Bit by bit -/

/-- The low bits of a left shift are zeros, so they keep the word's. -/
theorem getLsbD_shiftXor_left_of_lt {k i : Nat} (x : Word) (h : i < k) :
    (shiftXor .left k x).getLsbD i = x.getLsbD i := by
  rw [getLsbD_shiftXor_left]
  simp [h]

theorem getLsbD_shiftXor_left_of_le {k i : Nat} (x : Word) (h : k ≤ i) (hi : i < 32) :
    (shiftXor .left k x).getLsbD i = (x.getLsbD i ^^ x.getLsbD (i - k)) := by
  rw [getLsbD_shiftXor_left]
  simp [hi, Nat.not_lt.mpr h]

/-- No bit of the word is high enough to reach the high bits of a right shift, and none fills them. -/
theorem getLsbD_ushiftRight_of_le {k i : Nat} (x : Word) (h : 32 ≤ k + i) : (x >>> k).getLsbD i = false := by
  rw [BitVec.getLsbD_ushiftRight, BitVec.getLsbD_of_ge x _ h]

theorem getLsbD_shiftXor_right_of_le {k i : Nat} (x : Word) (h : 32 ≤ k + i) :
    (shiftXor .right k x).getLsbD i = x.getLsbD i := by
  rw [getLsbD_shiftXor_right, BitVec.getLsbD_of_ge x _ h, Bool.xor_false]

/-- A left shift depends only on the bits that it does not move past bit 31. -/
theorem shiftLeft_eq_of_getLsbD_eq {k : Nat} {x y : Word} (h : ∀ i, i + k < 32 → x.getLsbD i = y.getLsbD i) :
    x <<< k = y <<< k := by
  refine BitVec.eq_of_getLsbD_eq fun i hi => ?_
  rw [BitVec.getLsbD_shiftLeft, BitVec.getLsbD_shiftLeft]
  by_cases hk : i < k
  · simp [hk]
  · rw [h (i - k) (by omega)]

/-- A word below the shift amount's power of two is shifted out whole. -/
theorem shiftXor_right_of_toNat_lt {k : Nat} {x : Word} (h : x.toNat < 2 ^ k) : shiftXor .right k x = x :=
  BitVec.eq_of_toNat_eq (by rw [toNat_shiftXor_right, Nat.div_eq_of_lt h, Nat.xor_zero])

/- Over GF(2) -/

/-- Both shifts distribute over xor, and what is left is to reorder the terms. -/
theorem shiftXor_xor (dir : Dir) (k : Nat) (a b : Word) :
    shiftXor dir k (a ^^^ b) = shiftXor dir k a ^^^ shiftXor dir k b := by
  cases dir with
  | left =>
    simp only [shiftXor, BitVec.shiftLeft_xor_distrib]
    ac_rfl
  | right =>
    simp only [shiftXor, BitVec.ushiftRight_xor_distrib]
    ac_rfl

end Sys2Proof.Machine
end

section
/-! PROOFS. The laws of the stage operations (40_shift_xor_steps.md R70 to R73). -/

namespace Sys2Proof.Machine

/-- The inverse of the operation hardwired to a stage (40_shift_xor_steps.md R72). -/
def stageOpInv : Stage → Word → Word
  | .s1 => xsl13Inv
  | .s2 => xsr17Inv
  | .s3 => xsl15Inv

@[simp] theorem stageOpInv_stageOp (k : Stage) (x : Word) : stageOpInv k (stageOp k x) = x := by
  cases k with
  | s1 => exact xsl13Inv_xsl13 x
  | s2 => exact xsr17Inv_xsr17 x
  | s3 => exact xsl15Inv_xsl15 x

@[simp] theorem stageOp_stageOpInv (k : Stage) (y : Word) : stageOp k (stageOpInv k y) = y := by
  cases k with
  | s1 => exact xsl13_xsl13Inv y
  | s2 => exact xsr17_xsr17Inv y
  | s3 => exact xsl15_xsl15Inv y

theorem stageOp_bijective (k : Stage) : Function.Bijective (stageOp k) :=
  Function.bijective_iff_has_inverse.mpr ⟨stageOpInv k, stageOpInv_stageOp k, stageOp_stageOpInv k⟩

theorem stageOp_eq_iff (k : Stage) (x y : Word) : stageOp k x = y ↔ x = stageOpInv k y := by
  constructor
  · rintro rfl
    rw [stageOpInv_stageOp]
  · rintro rfl
    rw [stageOp_stageOpInv]

/-- Each stage operation maps 0 to 0 (40_shift_xor_steps.md R70). -/
theorem stageOp_zero (k : Stage) : stageOp k 0#32 = 0#32 := by
  cases k <;> rfl

/-- Settles O15: each formula of the rule is its stage's inverse. -/
theorem stageOperationsAreInvertible : Obligations.StageOperationsAreInvertible :=
  ⟨stageOp_bijective, stageOp_eq_iff .s1, stageOp_eq_iff .s2, stageOp_eq_iff .s3⟩

/-- Settles O13: 0 gives 0, and a stage operation is injective. -/
theorem stageOperationsAreZeroOnlyAtZero : Obligations.StageOperationsAreZeroOnlyAtZero :=
  fun k _ => (stageOp_bijective k).injective.eq_iff' (stageOp_zero k)

/-- Settles O14: each stage operation is a shift-xor. -/
theorem stageOperationsAreLinear : Obligations.StageOperationsAreLinear := by
  intro k
  cases k with
  | s1 => exact shiftXor_xor .left 13
  | s2 => exact shiftXor_xor .right 17
  | s3 => exact shiftXor_xor .left 15

end Sys2Proof.Machine
end

section
/-! PROOFS. Stage operations alone, in an advancing edge, and in a listing (40_shift_xor_steps.md R66 to R69, R75). -/

namespace Sys2Proof.Machine

/- Alone -/

theorem exec_xsl13 (s : State) : exec .xsl13 s = .next (s.writeS1 (xsl13 s.inputs.inData)) := rfl

theorem exec_xsr17 (s : State) : exec .xsr17 s = .next (s.writeS2 (xsr17 s.s1_d)) := rfl

theorem exec_xsl15 (s : State) : exec .xsl15 s = .next (s.writeS3 (xsl15 s.s2_d)) := rfl

/-- Settles O8: the number and the bits are those of a left shift-xor by 13, and the corner cases are evaluated. -/
theorem xsl13LoadsStageOne : Obligations.Xsl13LoadsStageOne := by
  refine ⟨exec_xsl13, by decide, toNat_shiftXor_left 13, fun x i hi => ?_, fun x i h hi => ?_, by decide, by decide,
    by decide, by decide, by decide, fun x y h => ?_, by decide⟩
  · exact getLsbD_shiftXor_left_of_lt x (by omega)
  · exact getLsbD_shiftXor_left_of_le x h (by omega)
  · exact shiftLeft_eq_of_getLsbD_eq fun i hi => h i (by omega)

/-- Settles O9: the number and the bits are those of a right shift-xor by 17, and the corner cases are evaluated. -/
theorem xsr17LoadsStageTwo : Obligations.Xsr17LoadsStageTwo := by
  refine ⟨exec_xsr17, by decide, toNat_shiftXor_right 17, fun x i _ => ?_, fun x i h _ => ?_, fun x i h => ?_,
    fun x h => shiftXor_right_of_toNat_lt h, by decide, by decide, by decide, by decide, by decide⟩
  · rw [Nat.add_comm]
    exact getLsbD_shiftXor_right 17 x i
  · exact getLsbD_shiftXor_right_of_le x (by omega)
  · exact getLsbD_ushiftRight_of_le x (by omega)

/-- Settles O10: the number and the bits are those of a left shift-xor by 15, the offered word is stage 3's, and the corner
cases are evaluated. -/
theorem xsl15LoadsStageThree : Obligations.Xsl15LoadsStageThree := by
  refine ⟨exec_xsl15, fun s t rst hexec hv => ?_, by decide, toNat_shiftXor_left 15, fun x i hi => ?_,
    fun x i h hi => ?_, by decide, by decide, by decide, by decide, by decide, by decide⟩
  · rw [exec_xsl15] at hexec
    cases hexec
    rw [State.outData_of_outValid hv, State.writeS3_s3_d]
  · exact getLsbD_shiftXor_left_of_lt x (by omega)
  · exact getLsbD_shiftXor_left_of_le x h (by omega)

/- In an advancing edge -/

theorem State.clockCycle_of_adv {s : State} {p : Inputs} (h : p.rst = false) (ha : s.adv p.outReady = true) :
    s.clockCycle p = ((s.record p).advance p).nextCycle := by
  rw [State.clockCycle, State.edge_of_adv h ha]

/-- Settles O11: the step is the advancing clock cycle, which loads each register from a valid stage with the word that the
stage's operation writes alone. -/
theorem advancingEdgeRunsEachStageOperation : Obligations.AdvancingEdgeRunsEachStageOperation := by
  intro s hlist hrst hadv
  refine ⟨_, _, _, _, step_of_listing_nil hlist, exec_xsl13 s, exec_xsr17 s, exec_xsl15 s, ?_⟩
  rw [State.clockCycle_of_adv hrst (State.adv_eq_true.mpr hadv)]
  refine ⟨rfl, rfl, rfl, fun hv => ?_, fun hv => ?_, fun hv => ?_⟩ <;> simp [hv]

/- In a datapath listing -/

/-- The caller drives the same before and after a descriptor is taken off the listing. -/
@[simp] theorem State.afterFetch_inputs (s : State) : s.afterFetch.inputs = s.inputs := rfl

theorem step_of_listing_xsl13 {s : State} (h : s.listing = [0x0D#6, 0x31#6, 0x0F#6]) :
    step s = .next (s.afterFetch.writeS1 (xsl13 s.inputs.inData)) := by
  rw [step_of_decodeDesc h rfl rfl, exec_xsl13, State.afterFetch_inputs]

theorem step_of_listing_xsr17 {s : State} (h : s.listing = [0x31#6, 0x0F#6]) :
    step s = .next (s.afterFetch.writeS2 (xsr17 s.s1_d)) := by
  rw [step_of_decodeDesc h rfl rfl, exec_xsr17, State.afterFetch_s1_d]

theorem step_of_listing_xsl15 {s : State} (h : s.listing = [0x0F#6]) :
    step s = .next (s.afterFetch.writeS3 (xsl15 s.s2_d)) := by
  rw [step_of_decodeDesc h rfl rfl, exec_xsl15, State.afterFetch_s2_d]

/-- Settles O12: one step for each descriptor, and each stage reads what the step before it wrote. -/
theorem datapathListingComputesTheTransform : Obligations.DatapathListingComputesTheTransform := by
  intro s hlist
  rw [run_succ_of_next (step_of_listing_xsl13 hlist), run_succ_of_next (step_of_listing_xsr17 (by simp [hlist])),
    run_succ_of_next (step_of_listing_xsl15 (by simp [hlist])), run_zero]
  simp [State.afterFetch, State.writeS1, State.writeS2, State.writeS3, hlist, xorshift32_eq]

end Sys2Proof.Machine
end

section
/-! PROOFS. The transform on words (41_next_transform.md R77, R84, R87, R88). -/

namespace Sys2Proof.Machine

/- The source function -/

/-- Settles O16: the three steps as numbers, one after the other, and the composition by definition. -/
theorem transformIsTheSourceFunction : Obligations.TransformIsTheSourceFunction := by
  refine ⟨fun x => ?_, rfl⟩
  rw [xorshift32_eq, xsl15, toNat_shiftXor_left, xsr17, toNat_shiftXor_right, xsl13, toNat_shiftXor_left]

/-- Settles O17: each row of a table and each chain is evaluated. -/
theorem transformMeetsEveryVector : Obligations.TransformMeetsEveryVector := by
  refine ⟨fun v hv => ?_, by decide, by decide, by decide, fun v hv => ?_, fun v hv => ?_⟩ <;> fin_cases hv <;> decide

/- The sign-extending variant -/

/-- An arithmetic right shift keeps bit 31 and a logical one clears it, so they agree exactly where bit 31 is clear. -/
theorem sshiftRight_eq_ushiftRight_iff {k : Nat} (h : 0 < k) (x : Word) :
    x.sshiftRight k = x >>> k ↔ x.getLsbD 31 = false := by
  rw [← BitVec.msb_eq_getLsbD_last]
  constructor
  · intro heq
    rw [← BitVec.msb_sshiftRight (n := k), heq, BitVec.msb_eq_getLsbD_last]
    exact getLsbD_ushiftRight_of_le x (by omega)
  · exact BitVec.sshiftRight_eq_of_msb_false

/-- Settles O18: step 3 and the xor of step 2 are injective, so the two differ exactly where the two shifts do. -/
theorem signExtendingShiftIsRejected : Obligations.SignExtendingShiftIsRejected := by
  refine ⟨fun x => ?_, by decide, by decide⟩
  calc signExtendingVariant x = xorshift32 x
      ↔ xsl13 x ^^^ (xsl13 x).sshiftRight 17 = xsr17 (xsl13 x) := (stageOp_bijective .s3).injective.eq_iff
    _ ↔ (xsl13 x).sshiftRight 17 = xsl13 x >>> 17 := BitVec.xor_right_inj _
    _ ↔ (xsl13 x).getLsbD 31 = false := sshiftRight_eq_ushiftRight_iff (by omega) _

/- The inverse -/

theorem xorshift32_bijective : Function.Bijective xorshift32 :=
  Function.bijective_iff_has_inverse.mpr ⟨xorshift32Inv, xorshift32Inv_xorshift32, xorshift32_xorshift32Inv⟩

theorem xorshift32_eq_iff (x y : Word) : xorshift32 x = y ↔ x = xorshift32Inv y := by
  rw [← xorshift32_bijective.injective.eq_iff (a := x), xorshift32_xorshift32Inv]

/-- Settles O19: the rule's formula is the inverse on both sides, and the two examples are evaluated. -/
theorem transformIsBijective : Obligations.TransformIsBijective :=
  ⟨xorshift32_bijective, xorshift32_eq_iff, by decide, by decide⟩

/- Zero -/

@[simp] theorem xorshift32_zero : xorshift32 0#32 = 0#32 := by decide

theorem xorshift32_iterate_zero (n : Nat) : xorshift32^[n] 0#32 = 0#32 :=
  Function.iterate_fixed xorshift32_zero n

/-- A chain reaches 0 only from 0 (41_next_transform.md R88). -/
theorem xorshift32_iterate_eq_zero_iff (n : Nat) (x : Word) : xorshift32^[n] x = 0#32 ↔ x = 0#32 :=
  (xorshift32_bijective.injective.iterate n).eq_iff' (xorshift32_iterate_zero n)

/-- Settles O21: every iterate of the transform is injective and fixes 0; the transform is its own first iterate. -/
theorem nonzeroChainNeverReachesZero : Obligations.NonzeroChainNeverReachesZero :=
  ⟨xorshift32_iterate_eq_zero_iff 1, fun x n => (xorshift32_iterate_eq_zero_iff n x).not.mpr⟩

end Sys2Proof.Machine
end

section
/-! PROOFS. Maps on words that are linear over GF(2), as matrices (41_next_transform.md R89). -/

namespace Sys2Proof.Machine

/-- Linear over GF(2): xor is the addition of words. -/
def IsLinear (f : Word → Word) : Prop :=
  ∀ a b : Word, f (a ^^^ b) = f a ^^^ f b

theorem IsLinear.map_zero {f : Word → Word} (hf : IsLinear f) : f 0#32 = 0#32 := by
  simpa using hf 0#32 0#32

theorem IsLinear.comp {f g : Word → Word} (hf : IsLinear f) (hg : IsLinear g) : IsLinear (f ∘ g) := fun a b => by
  rw [Function.comp_apply, hg, hf, Function.comp_apply, Function.comp_apply]

/-- The transform is three shift-xors in a row. -/
theorem xorshift32_isLinear : IsLinear xorshift32 := fun a b => by
  simp only [xorshift32_eq, xsl13, xsr17, xsl15, shiftXor_xor]

/- The columns -/

/-- The low `n` bits of a word. -/
def lowBits (n : Nat) (x : Word) : Word :=
  (x.setWidth n).setWidth 32

theorem getLsbD_lowBits (n : Nat) (x : Word) (i : Nat) : (lowBits n x).getLsbD i = (decide (i < n) && x.getLsbD i) := by
  by_cases hi : i < 32
  · simp [lowBits, hi]
  · rw [BitVec.getLsbD_of_ge _ _ (by omega), BitVec.getLsbD_of_ge x _ (by omega), Bool.and_false]

theorem lowBits_zero (x : Word) : lowBits 0 x = 0#32 :=
  BitVec.eq_of_getLsbD_eq fun i _ => by simp [getLsbD_lowBits]

theorem lowBits_word (x : Word) : lowBits 32 x = x :=
  BitVec.setWidth_eq x

/-- One more low bit is that bit's word, if the bit is set, added to the low bits. -/
theorem lowBits_succ {n : Nat} (hn : n < 32) (x : Word) :
    lowBits (n + 1) x = if x.getLsbD n then lowBits n x ^^^ 1#32 <<< n else lowBits n x := by
  refine BitVec.eq_of_getLsbD_eq fun i _ => ?_
  have hone : (1#32 <<< n).getLsbD i = decide (n = i) := by
    rw [← BitVec.twoPow_eq, BitVec.getLsbD_twoPow, decide_eq_true hn, Bool.true_and]
  rw [apply_ite (BitVec.getLsbD · i), BitVec.getLsbD_xor, hone, getLsbD_lowBits, getLsbD_lowBits]
  by_cases hi : n = i
  · subst hi
    simp
  · have hlt : i < n + 1 ↔ i < n := by omega
    simp [hi, hlt]

/-- A matrix over GF(2): its columns, each with the number of the bit that selects it. -/
abbrev Columns := List (Nat × Word)

/-- The product of a matrix and a word: the sum of the columns that the word's set bits select. -/
def Columns.mulVec (m : Columns) (x : Word) : Word :=
  m.foldl (fun acc c => if x.getLsbD c.1 then acc ^^^ c.2 else acc) 0#32

/-- The product of two matrices, column by column. -/
def Columns.mul (m k : Columns) : Columns :=
  k.map fun c => (c.1, m.mulVec c.2)

/-- The first `n` columns of a map's matrix: its values on the one-bit words below bit `n`. -/
def columnsBelow (n : Nat) (f : Word → Word) : Columns :=
  (List.range n).map fun i => (i, f (1#32 <<< i))

/-- The matrix of a map. -/
def columnsOf (f : Word → Word) : Columns :=
  columnsBelow 32 f

/-- One more column is added if its bit is set. -/
theorem mulVec_columnsBelow_succ (n : Nat) (f : Word → Word) (x : Word) :
    (columnsBelow (n + 1) f).mulVec x =
      if x.getLsbD n then (columnsBelow n f).mulVec x ^^^ f (1#32 <<< n) else (columnsBelow n f).mulVec x := by
  rw [columnsBelow, List.range_succ, List.map_append, Columns.mulVec, List.foldl_append]
  rfl

/-- The first columns of a linear map's matrix give its value on the low bits. -/
theorem IsLinear.mulVec_columnsBelow {f : Word → Word} (hf : IsLinear f) (x : Word) {n : Nat} (hn : n ≤ 32) :
    (columnsBelow n f).mulVec x = f (lowBits n x) := by
  induction n with
  | zero =>
    rw [lowBits_zero, hf.map_zero]
    rfl
  | succ n ih => rw [mulVec_columnsBelow_succ, ih (by omega), lowBits_succ (by omega), apply_ite f, hf]

/-- A linear map is the product with its matrix. -/
theorem IsLinear.mulVec_columnsOf {f : Word → Word} (hf : IsLinear f) : (columnsOf f).mulVec = f := by
  funext x
  rw [columnsOf, hf.mulVec_columnsBelow x (Nat.le_refl 32), lowBits_word]

/-- Settles O20: the transform is linear, so it is the product with its matrix, and it is a bijection. -/
theorem transformIsAnInvertibleMatrix : Obligations.TransformIsAnInvertibleMatrix := by
  refine ⟨xorshift32_isLinear, fun x => ?_, xorshift32_bijective⟩
  calc xorshift32 x = (columnsOf xorshift32).mulVec x := by rw [xorshift32_isLinear.mulVec_columnsOf]
    _ = _ := List.foldl_map

/- Powers -/

theorem IsLinear.mul_columnsOf {f : Word → Word} (hf : IsLinear f) (g : Word → Word) :
    (columnsOf f).mul (columnsOf g) = columnsOf (f ∘ g) := by
  rw [Columns.mul, hf.mulVec_columnsOf, columnsOf, columnsBelow, List.map_map]
  rfl

/-- The product of the `n`-th power of a matrix and a word, for `n` of at most `k` bits, by repeated squaring. -/
def Columns.powMulVec (m : Columns) : (k n : Nat) → Word → Word
  | 0, _, x => x
  | k + 1, n, x => Columns.powMulVec (m.mul m) k (n / 2) (if n % 2 = 1 then m.mulVec x else x)

/-- The powers of a linear map's matrix are the map's iterates. -/
theorem IsLinear.powMulVec_columnsOf {f : Word → Word} (hf : IsLinear f) {k n : Nat} (hn : n < 2 ^ k) (x : Word) :
    (columnsOf f).powMulVec k n x = f^[n] x := by
  induction k generalizing f n x with
  | zero =>
    obtain rfl : n = 0 := by omega
    rfl
  | succ k ih =>
    have hparity : (if n % 2 = 1 then f x else x) = f^[n % 2] x := by
      rcases Nat.mod_two_eq_zero_or_one n with h | h <;> simp [h]
    calc (columnsOf f).powMulVec (k + 1) n x
        = (columnsOf (f ∘ f)).powMulVec k (n / 2) (if n % 2 = 1 then f x else x) := by
          rw [Columns.powMulVec, hf.mul_columnsOf, hf.mulVec_columnsOf]
      _ = (f^[2])^[n / 2] (f^[n % 2] x) := by rw [ih (hf.comp hf) (by omega), hparity]; rfl
      _ = f^[n] x := by rw [← Function.iterate_mul, ← Function.iterate_add_apply, Nat.div_add_mod]

end Sys2Proof.Machine
end

section
/-! PROOFS. The period of a nonzero chain (41_next_transform.md R90). -/

namespace Sys2Proof.Machine

open Function

/- The period of the chain from 1 -/

/-- A period is the least one if it is no longer a period after any of its prime factors is taken out. -/
theorem minimalPeriod_eq_of_prime_factors {α : Type} {f : α → α} {x : α} {n : Nat} (h : IsPeriodicPt f n x)
    (hp : ∀ p, p.Prime → p ∣ n → ¬ IsPeriodicPt f (n / p) x) : minimalPeriod f x = n := by
  obtain ⟨k, hk⟩ := h.minimalPeriod_dvd
  by_contra hne
  have hk1 : k ≠ 1 := by
    rintro rfl
    exact hne (by rw [hk, Nat.mul_one])
  obtain ⟨p, hprime, j, rfl⟩ := Nat.exists_prime_and_dvd hk1
  have hdiv : n / p = minimalPeriod f x * j :=
    Nat.div_eq_of_eq_mul_right hprime.pos (by rw [hk, Nat.mul_left_comm])
  exact hp p hprime ⟨_, by rw [hk, Nat.mul_left_comm]⟩ (hdiv ▸ (isPeriodicPt_minimalPeriod f x).mul_const j)

/-- The period is the product of the five Fermat primes. -/
theorem mem_of_prime_dvd_fullPeriod {p : Nat} (hp : p.Prime) (h : p ∣ fullPeriod) : p ∈ [3, 5, 17, 257, 65537] := by
  have hfactors : fullPeriod = [3, 5, 17, 257, 65537].prod := by norm_num [fullPeriod]
  have hprimes : ∀ q ∈ [3, 5, 17, 257, 65537], Prime q := by norm_num [← Nat.prime_iff]
  exact mem_list_primes_of_dvd_prod hp.prime hprimes (hfactors ▸ h)

/-- The powers of the transform's matrix that decide the period of the chain from 1. They take some 32 times 1024
conditional xors, which only the kernel evaluates: the elaborator would do the same work a second time. -/
theorem powMulVec_one :
    (columnsOf xorshift32).powMulVec 32 fullPeriod 1#32 = 1#32 ∧
    ∀ p ∈ [3, 5, 17, 257, 65537], (columnsOf xorshift32).powMulVec 32 (fullPeriod / p) 1#32 ≠ 1#32 := by
  decide +kernel

/-- The chain from 1 comes back after 2^32 - 1 transforms, and not after any quotient of that by a prime factor. -/
theorem minimalPeriod_xorshift32_one : minimalPeriod xorshift32 1#32 = fullPeriod := by
  obtain ⟨hperiod, hprimes⟩ := powMulVec_one
  refine minimalPeriod_eq_of_prime_factors ?_ fun p hp hdvd => ?_
  · rwa [xorshift32_isLinear.powMulVec_columnsOf (by decide)] at hperiod
  · have hlt : fullPeriod / p < 2 ^ 32 := Nat.lt_of_le_of_lt (Nat.div_le_self _ _) (by decide)
    have hne := hprimes p (mem_of_prime_dvd_fullPeriod hp hdvd)
    rwa [xorshift32_isLinear.powMulVec_columnsOf hlt] at hne

/- Every nonzero chain -/

/-- There are as many nonzero words as a full period has places, so a chain of that period visits each of them. -/
theorem exists_iterate_eq_of_minimalPeriod {x y : Word} (hx : x ≠ 0#32) (hy : y ≠ 0#32)
    (h : minimalPeriod xorshift32 x = fullPeriod) : ∃ n < fullPeriod, xorshift32^[n] x = y := by
  have hpos {w : Word} (hw : w ≠ 0#32) : 0 < w.toNat := (BitVec.pos_iff_ne_zero w).mpr hw
  have hsurj : Set.SurjOn (fun n => (xorshift32^[n] x).toNat) (Finset.range fullPeriod) (Finset.Ioo 0 (2 ^ 32)) := by
    refine Finset.surjOn_of_injOn_of_card_le _ (fun n _ => ?_) (fun m hm n hn heq => ?_) (by simp [fullPeriod])
    · have hne := (xorshift32_iterate_eq_zero_iff n x).not.mpr hx
      exact Finset.mem_coe.mpr (Finset.mem_Ioo.mpr ⟨hpos hne, BitVec.isLt _⟩)
    · rw [Finset.coe_range, ← h] at hm hn
      exact iterate_injOn_Iio_minimalPeriod hm hn (BitVec.eq_of_toNat_eq heq)
  obtain ⟨n, hn, heq⟩ := hsurj (Finset.mem_coe.mpr (Finset.mem_Ioo.mpr ⟨hpos hy, y.isLt⟩))
  exact ⟨n, Finset.mem_range.mp (Finset.mem_coe.mp hn), BitVec.eq_of_toNat_eq heq⟩

/-- Every nonzero word is in the chain from 1, so it has that chain's period. -/
theorem minimalPeriod_xorshift32 {x : Word} (hx : x ≠ 0#32) : minimalPeriod xorshift32 x = fullPeriod := by
  have hone := minimalPeriod_xorshift32_one
  obtain ⟨n, -, rfl⟩ := exists_iterate_eq_of_minimalPeriod (by decide) hx hone
  rw [minimalPeriod_apply_iterate (minimalPeriod_pos_iff_mem_periodicPts.mp (by rw [hone]; decide)), hone]

theorem xorshift32_iterate_eq_self_iff {x : Word} (hx : x ≠ 0#32) (n : Nat) :
    xorshift32^[n] x = x ↔ fullPeriod ∣ n := by
  rw [← minimalPeriod_xorshift32 hx]
  exact isPeriodicPt_iff_minimalPeriod_dvd

theorem xorshift32_iterate_fullPeriod (x : Word) : xorshift32^[fullPeriod] x = x := by
  by_cases hx : x = 0#32
  · rw [hx, xorshift32_iterate_zero]
  · exact (xorshift32_iterate_eq_self_iff hx _).mpr (dvd_refl _)

/-- Settles O22: the period of every nonzero chain is 2^32 - 1, which divides none of its quotients by a prime factor, and a
chain visits every nonzero word before it comes back, none of them twice. -/
theorem nonzeroChainHasFullPeriod : Obligations.NonzeroChainHasFullPeriod := by
  refine ⟨xorshift32_iterate_fullPeriod, fun p hp => ⟨1#32, ?_⟩, fun x n hx => xorshift32_iterate_eq_self_iff hx n,
    fun x y hx hy => ?_⟩
  · rw [Ne, xorshift32_iterate_eq_self_iff (by decide)]
    revert p
    decide
  · obtain ⟨n, hn, heq⟩ := exists_iterate_eq_of_minimalPeriod hx hy (minimalPeriod_xorshift32 hx)
    refine ⟨n, ⟨hn, heq⟩, fun m ⟨hm, hmeq⟩ => ?_⟩
    rw [← minimalPeriod_xorshift32 hx] at hn hm
    exact (iterate_eq_iterate_iff_of_lt_minimalPeriod hm hn).mp (hmeq.trans heq.symm)

end Sys2Proof.Machine
end

section
/-! PROOFS. `NEXT` in an advancing cycle (41_next_transform.md R78). -/

namespace Sys2Proof.Machine

/-- `NEXT` is one clock cycle in which the caller offers the seed (41_next_transform.md R78). -/
theorem exec_next (seed : Word) (s : State) :
    exec (.next seed) s = .next (s.clockCycle (Inputs.offering s.inputs seed)) := rfl

/-- An advancing cycle accepts the seed offered in it (42_pipeline_protocol.md R99). -/
theorem State.accept_offering {s : State} {p : Inputs} (h : p.rst = false) (ha : s.adv p.outReady = true) (seed : Word) :
    s.accept (Inputs.offering p seed) = some seed := by
  simp [State.accept, State.inReady, Inputs.offering, h, ha]

/-- What a cycle delivers does not depend on the seed offered in it (42_pipeline_protocol.md R100). -/
theorem State.deliver_offering {s : State} {p : Inputs} (h : p.rst = false) (seed : Word) :
    s.deliver (Inputs.offering p seed) = if s.s3_v ∧ p.outReady then some s.s3_d else none := by
  cases hv : s.s3_v <;> simp [State.deliver, State.outValid, State.outData, Inputs.offering, h, hv]

/-- Settles O24: the cycle is an advancing edge, whose events are the accept of the seed and the deliver of a full stage 3. -/
theorem nextIsAcceptedWhenThePipelineAdvances : Obligations.NextIsAcceptedWhenThePipelineAdvances := by
  intro s seed hrst hadv
  have ha := State.adv_eq_true.mpr hadv
  refine ⟨_, exec_next seed s, ?_⟩
  rw [State.clockCycle_of_adv (p := Inputs.offering s.inputs seed) hrst ha]
  refine ⟨rfl, rfl, rfl, fun hv => ?_, rfl, fun hv => ?_, ?_, ?_, rfl, rfl⟩
  · simp [hv]
  · simp [hv]
  · simp [State.accept_offering hrst ha]
  · simp only [State.nextCycle_delivered, State.advance_delivered, State.record_delivered, State.deliver_offering hrst]
    split <;> rfl

end Sys2Proof.Machine
end

section
/-! PROOFS. The ports, the edge and the two handshakes (42_pipeline_protocol.md R94, R95, R98 to R100). -/

namespace Sys2Proof.Machine

/- The edge -/

theorem State.clockCycle_of_rst {s : State} {p : Inputs} (h : p.rst = true) : s.clockCycle p = s.clear.nextCycle := by
  rw [State.clockCycle, State.edge_of_rst h]

theorem State.clockCycle_of_stall {s : State} {p : Inputs} (h : p.rst = false) (ha : s.adv p.outReady = false) :
    s.clockCycle p = s.nextCycle := by
  rw [State.clockCycle, State.edge_of_stall h ha]

/-- The pipeline stalls exactly if stage 3 is full and its result is not taken (42_pipeline_protocol.md R97). -/
theorem State.adv_eq_false {s : State} {outReady : Bool} :
    s.adv outReady = false ↔ s.s3_v = true ∧ outReady = false := by
  simp [State.adv]

/-- Settles O25: the step is the clock cycle, in each of its three cases. -/
theorem edgeUpdateMovesEachWordOneStage : Obligations.EdgeUpdateMovesEachWordOneStage := by
  intro s hlist
  refine ⟨_, step_of_listing_nil hlist, fun hrst => ?_, fun hrst hadv => ?_, fun hrst hv ho => ?_⟩
  · rw [State.clockCycle_of_rst hrst]
    exact ⟨rfl, rfl, rfl⟩
  · rw [State.clockCycle_of_adv hrst (State.adv_eq_true.mpr hadv)]
    refine ⟨rfl, fun hv => ?_, rfl, fun hv => ?_, rfl, fun hv => ?_⟩ <;> simp [hv]
  · rw [State.clockCycle_of_stall hrst (State.adv_eq_false.mpr ⟨hv, ho⟩)]
    exact ⟨rfl, rfl, rfl, rfl, rfl, rfl⟩

/- The ports -/

theorem State.observe_outValid (s : State) : s.observe.outValid = s.outValid s.inputs.rst := rfl

/-- While `out_valid = 1` the caller sees stage 3's word (42_pipeline_protocol.md R95). -/
theorem State.observe_outData_of_outValid {s : State} (h : s.outValid s.inputs.rst = true) :
    s.observe.outData = some s.s3_d := by
  simp [State.observe, h, State.outData_of_outValid h]

/-- Settles O26: of a row the ports read `rst` and `outReady` only, and `out_valid` and `out_data` read `rst` only, so a change
of the other parts leaves them the same by definition. -/
theorem outputPortsFollowTheRegisters : Obligations.OutputPortsFollowTheRegisters :=
  ⟨fun _ => ⟨rfl, rfl, State.observe_outData_of_outValid⟩, fun _ _ _ _ _ => rfl, fun _ _ _ _ => ⟨rfl, rfl⟩⟩

/- Accept -/

theorem State.inReady_eq_true {s : State} {rst outReady : Bool} :
    s.inReady rst outReady = true ↔ rst = false ∧ s.adv outReady = true := by
  simp [State.inReady]

/-- The handshake at the input (42_pipeline_protocol.md R99). -/
theorem State.accept_eq_some {s : State} {p : Inputs} {w : Word} :
    s.accept p = some w ↔ p.inValid = true ∧ s.inReady p.rst p.outReady = true ∧ p.inData = w := by
  simp [State.accept, and_assoc]

/-- An accepted seed is added to the history and enters stage 1 (42_pipeline_protocol.md R99). -/
theorem State.clockCycle_of_accept {s : State} {p : Inputs} {w : Word} (h : s.accept p = some w) :
    (s.clockCycle p).accepted = s.accepted ++ [w] ∧ (s.clockCycle p).s1_v = true ∧ (s.clockCycle p).s1_d = xsl13 w := by
  obtain ⟨hvalid, hready, rfl⟩ := State.accept_eq_some.mp h
  obtain ⟨hrst, ha⟩ := State.inReady_eq_true.mp hready
  rw [State.clockCycle_of_adv hrst ha]
  simp [h, hvalid]

/-- While the block is not ready, what the caller offers has no effect: the cycle is a reset or a stall. -/
theorem State.clockCycle_congr_of_not_inReady {s : State} {p q : Inputs} (h : s.inReady p.rst p.outReady = false)
    (hrst : q.rst = p.rst) (ho : q.outReady = p.outReady) : s.clockCycle p = s.clockCycle q := by
  cases hr : p.rst with
  | true => rw [State.clockCycle_of_rst hr, State.clockCycle_of_rst (hrst.trans hr)]
  | false =>
    have ha : s.adv p.outReady = false := by simpa [State.inReady, hr] using h
    rw [State.clockCycle_of_stall hr ha, State.clockCycle_of_stall (hrst.trans hr) (ho ▸ ha)]

/-- Settles O27: each clause is the rule of the handshake or the effect of the cycle on what it accepts. -/
theorem acceptHappensExactlyAtTheHandshake : Obligations.AcceptHappensExactlyAtTheHandshake := by
  refine ⟨fun s w => State.accept_eq_some, fun s w hlist hacc => ⟨_, step_of_listing_nil hlist, ?_⟩,
    fun s hlist hnone hrst => ⟨_, step_of_listing_nil hlist, ?_⟩, fun s a hready => ?_, fun s => State.inReady_eq_true.mp⟩
  · exact State.clockCycle_of_accept hacc
  · obtain ⟨hacc, -⟩ := State.clockCycle_history (s := s) hrst
    rw [hacc, hnone, Option.toList_none, List.append_nil]
  · rw [exec_next]
    exact congrArg _ (State.clockCycle_congr_of_not_inReady (p := Inputs.offering s.inputs a) hready rfl rfl)

/- Deliver -/

/-- The handshake at the output (42_pipeline_protocol.md R100); the word delivered is stage 3's. -/
theorem State.deliver_eq_some {s : State} {p : Inputs} {r : Word} :
    s.deliver p = some r ↔ s.outValid p.rst = true ∧ p.outReady = true ∧ s.s3_d = r := by
  unfold State.deliver
  cases hv : s.outValid p.rst with
  | true => simp [State.outData_of_outValid hv]
  | false => simp

/-- A deliver happens outside reset and at an advancing edge (42_pipeline_protocol.md R100). -/
theorem State.adv_of_deliver {s : State} {p : Inputs} {r : Word} (h : s.deliver p = some r) :
    p.rst = false ∧ s.adv p.outReady = true := by
  obtain ⟨hv, ho, -⟩ := State.deliver_eq_some.mp h
  have hrst : p.rst = false := by simpa using (Bool.and_eq_true_iff.mp hv).2
  exact ⟨hrst, State.adv_eq_true.mpr (.inr ho)⟩

/-- A delivered result is added to the history, and stage 2 refills stage 3 (42_pipeline_protocol.md R100). -/
theorem State.clockCycle_of_deliver {s : State} {p : Inputs} {r : Word} (h : s.deliver p = some r) :
    (s.clockCycle p).delivered = s.delivered ++ [r] ∧ (s.clockCycle p).s3_v = s.s2_v ∧
      (s.s2_v = true → (s.clockCycle p).s3_d = xsl15 s.s2_d) := by
  obtain ⟨hrst, ha⟩ := State.adv_of_deliver h
  rw [State.clockCycle_of_adv hrst ha]
  exact ⟨by simp [h], rfl, fun hv => by simp [hv]⟩

/-- Settles O28: each clause is the rule of the handshake or the effect of the cycle on what it delivers. -/
theorem deliverHappensExactlyAtTheHandshake : Obligations.DeliverHappensExactlyAtTheHandshake := by
  refine ⟨fun s r => ?_, fun s r hlist hdel => ?_, fun s hlist hnone hrst => ⟨_, step_of_listing_nil hlist, ?_⟩⟩
  · rw [State.deliver_eq_some, State.observe_outValid]
    refine and_congr_right fun hv => ?_
    rw [State.observe_outData_of_outValid hv, Option.some_inj]
  · obtain ⟨hrst, ha⟩ := State.adv_of_deliver hdel
    exact ⟨hrst, ha, _, step_of_listing_nil hlist, State.clockCycle_of_deliver hdel⟩
  · obtain ⟨-, hdel⟩ := State.clockCycle_history (s := s) hrst
    rw [hdel, hnone, Option.toList_none, List.append_nil]

end Sys2Proof.Machine
end

section
/-! PROOFS. Stall cycles (42_pipeline_protocol.md R101). -/

namespace Sys2Proof.Machine

section
variable {s : State} {r : Row} (hv : s.s3_v = true) (hrst : r.rst = false) (ho : r.outReadyWith true s.s3_d = false)
include hv hrst

theorem State.outValid_of_row : s.outValid r.rst = true := by
  simp [State.outValid, hv, hrst]

include ho

/-- A row that does not take the word of a full stage 3 stalls the pipeline. -/
theorem Row.adv_of_refuses : s.adv (r.inputs s).outReady = false := by
  have hvalid := State.outValid_of_row hv hrst
  rw [State.adv_eq_false, Row.inputs_outReady, hvalid, State.outData_of_outValid hvalid]
  exact ⟨hv, ho⟩

variable {rest : List Row} (hstim : s.stimulus = r :: rest)
include hstim

/-- In a stall cycle the block is not ready and offers stage 3's word. -/
theorem State.observe_of_refuses : s.observe = { inReady := false, outValid := true, outData := some s.s3_d } := by
  have hvalid := State.outValid_of_row hv hrst
  have ha := Row.adv_of_refuses hv hrst ho
  have hin := State.inputs_of_stimulus hstim
  simp only [State.observe, hin, Row.inputs_rst, hvalid, State.outData_of_outValid hvalid, State.inReady, ha,
    Bool.and_false, if_true]

theorem State.clockCycle_of_refuses : s.clockCycle s.inputs = s.nextCycle := by
  rw [State.inputs_of_stimulus hstim]
  exact State.clockCycle_of_stall hrst (Row.adv_of_refuses hv hrst ho)

end

/-- Stall cycles consume their rows and change nothing else but the index of the free values. -/
theorem run_of_refusing_rows {rows rest : List Row} {s : State} (hlist : s.listing = []) (hv : s.s3_v = true)
    (hstim : s.stimulus = rows ++ rest) (hrows : ∀ r ∈ rows, r.rst = false ∧ r.outReadyWith true s.s3_d = false) :
    run rows.length s = .next { s with stimulus := rest, drawIndex := s.drawIndex + rows.length } := by
  induction rows generalizing s with
  | nil =>
    obtain rfl : s.stimulus = rest := hstim
    rfl
  | cons r rows ih =>
    obtain ⟨⟨hrst, ho⟩, htail⟩ := List.forall_mem_cons.mp hrows
    rw [List.length_cons, run_succ_of_listing_nil hlist, State.clockCycle_of_refuses hv hrst ho hstim,
      ih (s := s.nextCycle) hlist hv (by simp [hstim]) htail]
    simp [State.nextCycle, Nat.add_assoc, Nat.add_comm 1]

/-- Settles O29: the first row stalls, which fixes what is observed, and the whole list of rows changes no register. -/
theorem stallHoldsEveryRegister : Obligations.StallHoldsEveryRegister := by
  intro rows rest s hlist hv hstim hrows
  refine ⟨fun hne => ?_, _, run_of_refusing_rows hlist hv hstim hrows, rfl, rfl, rfl, rfl, rfl, rfl, rfl, rfl, rfl, hlist⟩
  obtain ⟨r, rows, rfl⟩ := List.exists_cons_of_ne_nil hne
  obtain ⟨hrst, ho⟩ := hrows r List.mem_cons_self
  exact State.observe_of_refuses hv hrst ho hstim

end Sys2Proof.Machine
end

section
/-! PROOFS. How many transactions are in flight, and what has been delivered since a reset edge (42_pipeline_protocol.md
R96, R106). -/

namespace Sys2Proof.Machine

/-- Each valid stage holds one transaction (42_pipeline_protocol.md R96). -/
theorem State.length_pendingResults (s : State) : s.pendingResults.length = s.inFlight := by
  have stage (v : Bool) (r : Word) : (if v then [r] else []).length = v.toNat := by cases v <;> rfl
  simp only [State.pendingResults, State.inFlight, List.length_append, stage]
  omega

theorem State.length_seedsInFlight (s : State) : s.seedsInFlight.length = s.inFlight := by
  rw [← s.map_xorshift32Inv_pendingResults, List.length_map, s.length_pendingResults]

theorem State.inFlight_le (s : State) : s.inFlight ≤ 3 := by
  have h1 := s.s1_v.toNat_le
  have h2 := s.s2_v.toNat_le
  have h3 := s.s3_v.toNat_le
  unfold State.inFlight
  omega

section
variable {s : State} (h : s.Inv)
include h

/-- Under the invariant every accepted seed is delivered or in flight. -/
theorem State.Inv.accepted_length : s.accepted.length = s.delivered.length + s.inFlight := by
  obtain ⟨-, hist⟩ := h
  rw [← List.length_map (f := xorshift32), ← hist, List.length_append, s.length_pendingResults]

/-- Under the invariant each delivered word is the transform of the seed at its place (42_pipeline_protocol.md R106). -/
theorem State.Inv.delivered_getElem? {k : Nat} (hk : k < s.delivered.length) :
    s.delivered[k]? = s.accepted[k]?.map xorshift32 := by
  obtain ⟨-, hist⟩ := h
  rw [← List.getElem?_map, ← hist, List.getElem?_append_left hk]

/-- Any number of cycles keeps the invariant. -/
theorem State.Inv.run (n : Nat) : ∃ t, run n s = .next t ∧ t.Inv := by
  induction n generalizing s with
  | zero => exact ⟨s, rfl, h⟩
  | succ n ih =>
    have ⟨hlist, _⟩ := h
    rw [run_succ_of_listing_nil hlist]
    exact ih (h.clockCycle s.inputs)

end

/-- Settles O38: the valid stages count the seeds in flight, and under the invariant these are the accepted seeds not yet
delivered. -/
theorem atMostThreeInFlight : Obligations.AtMostThreeInFlight := by
  intro s h
  have hacc := h.accepted_length
  rw [s.length_seedsInFlight]
  exact ⟨rfl, by omega, by omega, s.inFlight_le⟩

/-- A reset edge makes the invariant hold, whatever the registers and the history before it: nothing is in flight and the
history is empty. -/
theorem State.inv_clockCycle_of_rst {s : State} {p : Inputs} (hlist : s.listing = []) (hrst : p.rst = true) :
    (s.clockCycle p).Inv := by
  rw [State.clockCycle_of_rst hrst]
  exact ⟨hlist, rfl⟩

/-- Settles O39: the reset edge makes the invariant hold, every later cycle keeps it, and it says what was delivered. -/
theorem everyDeliveredWordIsTheTransformOfItsSeed : Obligations.EveryDeliveredWordIsTheTransformOfItsSeed := by
  intro s n hlist hrst
  obtain ⟨t, hrun, hinv⟩ := (State.inv_clockCycle_of_rst hlist hrst).run n
  have hacc := hinv.accepted_length
  have hmax := t.inFlight_le
  refine ⟨t, ?_, by omega, by omega, fun k => hinv.delivered_getElem?⟩
  rw [run_succ_of_listing_nil hlist, hrun]

end Sys2Proof.Machine
end

section
/-! PROOFS. A transaction on its way through the stages (42_pipeline_protocol.md R107). -/

namespace Sys2Proof.Machine

/-- Where the transaction of seed `w` is `k` advancing edges after its accept: in stage 1, 2 or 3, then the last word
delivered, and after that no longer followed (42_pipeline_protocol.md R107). -/
def State.Carries (s : State) (w : Word) : Nat → Prop
  | 0 => s.s1_v = true ∧ s.s1_d = xsl13 w
  | 1 => s.s2_v = true ∧ s.s2_d = xsr17 (xsl13 w)
  | 2 => s.s3_v = true ∧ s.s3_d = xorshift32 w
  | 3 => s.delivered.getLast? = some (xorshift32 w)
  | _ => True

/-- A stall leaves the transaction where it is. -/
theorem State.Carries.stall {s : State} {w : Word} {k : Nat} (h : s.Carries w k) : s.nextCycle.Carries w k := by
  match k, h with
  | 0, h | 1, h | 2, h | 3, h => exact h
  | _ + 4, _ => trivial

/-- An advancing edge takes the transaction one place on; out of stage 3 it is delivered. -/
theorem State.Carries.advance {s : State} {p : Inputs} {w : Word} {k : Nat} (h : s.Carries w k) (hrst : p.rst = false)
    (ha : s.adv p.outReady = true) : (s.clockCycle p).Carries w (k + 1) := by
  match k, h with
  | 0, ⟨hv, hd⟩ | 1, ⟨hv, hd⟩ =>
    rw [State.clockCycle_of_adv hrst ha]
    exact ⟨hv, by simp [hv, hd, xorshift32_eq]⟩
  | 2, ⟨hv, hd⟩ =>
    have ho : p.outReady = true := by simpa [State.adv, hv] using ha
    have hdel : s.deliver p = some (xorshift32 w) :=
      State.deliver_eq_some.mpr ⟨by simp [State.outValid, hv, hrst], ho, hd⟩
    obtain ⟨hhist, -⟩ := State.clockCycle_of_deliver hdel
    simp [State.Carries, hhist]
  | _ + 3, _ => trivial

/-- A cycle without reset takes the transaction on by its advancing edge, if it ends in one. -/
theorem State.Carries.clockCycle {s : State} {p : Inputs} {w : Word} {k : Nat} (h : s.Carries w k) (hrst : p.rst = false) :
    (s.clockCycle p).Carries w (k + (s.adv p.outReady).toNat) := by
  cases ha : s.adv p.outReady with
  | true => exact h.advance hrst ha
  | false =>
    rw [State.clockCycle_of_stall hrst ha]
    exact h.stall

/-- The advancing edges of `n + 1` cycles without reset are those of the last `n` and the first one's, if it advances. -/
theorem advancesIn_succ_eq_some {n k : Nat} {s : State} (hlist : s.listing = []) (h : advancesIn (n + 1) s = some k) :
    s.inputs.rst = false ∧
      ∃ j, advancesIn n (s.clockCycle s.inputs) = some j ∧ k = j + (s.adv s.inputs.outReady).toNat := by
  rw [advancesIn, step_of_listing_nil hlist] at h
  cases hrst : s.inputs.rst with
  | true => simp [hrst] at h
  | false =>
    cases hj : advancesIn n (s.clockCycle s.inputs) with
    | none => simp [hrst, hj] at h
    | some j => exact ⟨rfl, j, rfl, by simpa [hrst, hj, eq_comm] using h⟩

/-- Any number of cycles takes the transaction on by as many places as they have advancing edges. -/
theorem State.Carries.run {n j k : Nat} {s t : State} {w : Word} (h : s.Carries w k) (hlist : s.listing = [])
    (hadv : advancesIn n s = some j) (hrun : run n s = .next t) : t.Carries w (k + j) := by
  induction n generalizing s j k with
  | zero =>
    cases hadv
    cases hrun
    exact h
  | succ n ih =>
    obtain ⟨hrst, j, hj, rfl⟩ := advancesIn_succ_eq_some hlist hadv
    rw [run_succ_of_listing_nil hlist] at hrun
    have ht := ih (h.clockCycle hrst) (by rw [State.clockCycle_listing, hlist]) hj hrun
    rwa [Nat.add_assoc, Nat.add_comm _ j] at ht

/-- Settles O41: the accept puts the transaction in stage 1, and the cycles after it take it on, one place per advancing
edge. -/
theorem transactionMovesOneStagePerAdvance : Obligations.TransactionMovesOneStagePerAdvance := by
  intro s s1 t w n k hlist hacc hstep hadv hrun
  obtain rfl : s.clockCycle s.inputs = s1 := by simpa [step_of_listing_nil hlist] using hstep
  obtain ⟨-, hv, hd⟩ := State.clockCycle_of_accept hacc
  have hstart : (s.clockCycle s.inputs).Carries w 0 := ⟨hv, hd⟩
  have ht := hstart.run (by rw [State.clockCycle_listing, hlist]) hadv hrun
  rw [Nat.zero_add] at ht
  refine ⟨?_, ?_, ?_, ?_⟩ <;> rintro rfl <;> exact ht

end Sys2Proof.Machine
end

section
/-! PROOFS. No exception and no stop, and reset before both handshakes (60_exceptions.md R111, R115). -/

namespace Sys2Proof.Machine

/- Every operation and every cycle has a next state -/

theorem exists_exec_eq_next (i : Instr) (s : State) : ∃ t, exec i s = .next t := by
  cases i with
  | next seed => exact ⟨_, exec_next seed s⟩
  | xsl13 => exact ⟨_, exec_xsl13 s⟩
  | xsr17 => exact ⟨_, exec_xsr17 s⟩
  | xsl15 => exact ⟨_, exec_xsl15 s⟩

/-- The model has no fault to answer: `Fault` has no constructor (log 16). -/
theorem step_ne_fault (s : State) (r : Fault) : step s ≠ .fault r := by
  cases r

/-- Settles O7: each operation has a meaning that answers a next state, and a step without a listing is a clock cycle. -/
theorem noOperationOrCycleStops : Obligations.NoOperationOrCycleStops :=
  ⟨exists_exec_eq_next, step_ne_fault, fun _ hlist => ⟨_, step_of_listing_nil hlist⟩⟩

/- Reset and the handshakes -/

/-- In reset the block is not ready (42_pipeline_protocol.md R94). -/
@[simp] theorem State.inReady_rst (s : State) (outReady : Bool) : s.inReady true outReady = false := rfl

/-- In reset no result is offered (42_pipeline_protocol.md R95). -/
@[simp] theorem State.outValid_rst (s : State) : s.outValid true = false := Bool.and_false _

theorem State.accept_of_rst {s : State} {p : Inputs} (h : p.rst = true) : s.accept p = none := by
  simp [State.accept, h]

theorem State.deliver_of_rst {s : State} {p : Inputs} (h : p.rst = true) : s.deliver p = none := by
  simp [State.deliver, h]

/-- Settles O33: reset holds both sides of the handshakes at 0 and the cycle clears; without reset the cycle has the effect
of its accept and that of its deliver. -/
theorem resetHasPriorityOverBothHandshakes : Obligations.ResetHasPriorityOverBothHandshakes := by
  refine ⟨fun s hlist hrst => ?_, fun s w r hlist hacc hdel => ?_⟩
  · refine ⟨by simp [State.observe, hrst], by simp [State.observe_outValid, hrst], State.accept_of_rst hrst,
      State.deliver_of_rst hrst, _, step_of_listing_nil hlist, ?_⟩
    rw [State.clockCycle_of_rst hrst]
    exact ⟨rfl, rfl, rfl⟩
  · obtain ⟨haccepted, hstage⟩ := State.clockCycle_of_accept hacc
    obtain ⟨hdelivered, -⟩ := State.clockCycle_of_deliver hdel
    exact ⟨_, step_of_listing_nil hlist, haccepted, hdelivered, hstage⟩

end Sys2Proof.Machine
end

section
/-! PROOFS. Reset edges (70_reset_and_hazards.md R126 to R131, R134). -/

namespace Sys2Proof.Machine

/-- Settles O30: the cycle clears, so no valid bit is left and nothing is in flight. -/
theorem resetEdgeClearsTheValidBits : Obligations.ResetEdgeClearsTheValidBits := by
  intro s hlist hrst
  refine ⟨_, step_of_listing_nil hlist, ?_⟩
  rw [State.clockCycle_of_rst hrst]
  exact ⟨rfl, rfl, rfl, rfl, rfl⟩

/-- Settles O31: the cycle clears, which empties the history and consumes the row like any other cycle. -/
theorem resetEdgeRestartsTheHistory : Obligations.ResetEdgeRestartsTheHistory := by
  intro s hlist hrst
  refine ⟨_, step_of_listing_nil hlist, ?_⟩
  rw [State.clockCycle_of_rst hrst]
  exact ⟨rfl, rfl, rfl, hlist⟩

/-- A step under a row with `rst = 1` reads nothing else of the row. -/
theorem step_of_rst_row {s : State} {r : Row} {rest : List Row} (hlist : s.listing = []) (hstim : s.stimulus = r :: rest)
    (hrst : r.rst = true) : step s = .next s.clear.nextCycle := by
  have hin : s.inputs.rst = true := by rw [State.inputs_of_stimulus hstim, Row.inputs_rst, hrst]
  rw [step_of_listing_nil hlist, State.clockCycle_of_rst hin]

/-- Settles O32: both rows clear, and the clear cycle does not read the row it consumes. -/
theorem inputsDuringResetAreIgnored : Obligations.InputsDuringResetAreIgnored := by
  refine ⟨fun s r r' rest hlist hr hr' => ?_, fun s hrst => ⟨State.accept_of_rst hrst, State.deliver_of_rst hrst⟩⟩
  rw [step_of_rst_row (s := { s with stimulus := r :: rest }) hlist rfl hr,
    step_of_rst_row (s := { s with stimulus := r' :: rest }) hlist rfl hr']
  rfl

/-- Settles O34: the clear cycle leaves stage 3 empty, so the block is ready, and a seed offered to a ready block is
accepted. -/
theorem readyInTheFirstCycleAfterReset : Obligations.ReadyInTheFirstCycleAfterReset := by
  intro s t hlist hrst hstep hrst'
  obtain rfl : s.clear.nextCycle = t := by simpa [step_of_listing_nil hlist, State.clockCycle_of_rst hrst] using hstep
  have hempty : s.clear.nextCycle.outValid false = false := rfl
  have hready : s.clear.nextCycle.observe.inReady = true := by
    simp [State.observe, hrst', State.inReady_of_not_outValid _ hempty]
  refine ⟨rfl, hready, rfl, fun hvalid => ⟨_, step_of_listing_nil hlist, ?_⟩⟩
  exact State.clockCycle_of_accept (State.accept_eq_some.mpr ⟨hvalid, hready, rfl⟩)

/-- Settles O35: after reset nothing is pending and the history is empty, so the invariant's two sides are both empty. -/
theorem resetStateMeetsTheInvariant : Obligations.ResetStateMeetsTheInvariant :=
  ⟨⟨rfl, rfl⟩, rfl, rfl, rfl⟩

/-- Whether a cycle is a reset cycle does not depend on the registers. -/
theorem State.inputs_rst_congr {s t : State} (hstim : s.stimulus = t.stimulus) (hdraw : s.drawIndex = t.drawIndex) :
    s.inputs.rst = t.inputs.rst := by
  cases hs : t.stimulus with
  | nil => simp [State.inputs, hstim, hs, hdraw]
  | cons r rest => rw [State.inputs_of_stimulus (hstim.trans hs), State.inputs_of_stimulus hs, Row.inputs_rst, Row.inputs_rst]

/-- Cleared states agree, whatever the registers and the histories were: no stage is valid and no history is left. -/
theorem State.agreeOnValid_clear {s t : State} (hstim : s.stimulus = t.stimulus) (hlist : s.listing = t.listing)
    (hdraw : s.drawIndex = t.drawIndex) : s.clear.AgreeOnValid t.clear :=
  ⟨rfl, rfl, rfl, nofun, nofun, nofun, rfl, rfl, hstim, hlist, hdraw⟩

/-- Settles O47: the reset edge makes the two states agree on their valid stages; every later cycle keeps the agreement, and
states that agree give the same observation. The premise on `usesOutDataLawfully` is
not needed, since the two states draw the same word for `out_data` while `out_valid = 0` (log 6). -/
theorem resetErasesThePast : Obligations.ResetErasesThePast := by
  intro n s t hs ht hstim hdraw hrst _
  have hrst' : t.inputs.rst = true := State.inputs_rst_congr hstim hdraw ▸ hrst
  have hagree := (State.agreeOnValid_clear hstim (hs.trans ht.symm) hdraw).nextCycle
  rw [run_succ_of_listing_nil hs, run_succ_of_listing_nil ht, State.clockCycle_of_rst hrst, State.clockCycle_of_rst hrst']
  obtain ⟨s', t', hrun, hrun', h⟩ := hagree.run n hs
  exact ⟨s', t', hrun, hrun', h, h.observe_eq⟩

end Sys2Proof.Machine
end

section
/-! PROOFS. Cycles whose caller takes any result offered (70_reset_and_hazards.md R135, R138, 42_pipeline_protocol.md R107).

Such a cycle moves every transaction one stage on. `Flow` keeps of a state the history and, for each stage, the result it
will deliver, as a list of none or one; a cycle is then `Flow.cycle`, without a case split on the valid bits. -/

namespace Sys2Proof.Machine

/-- The history of a state, and the results its stages will deliver, each stage's as a list of none or one. -/
structure Flow where
  accepted : List Word
  delivered : List Word
  stage3 : List Word
  stage2 : List Word
  stage1 : List Word

/-- The history and the three parts of `State.pendingResults`. -/
def State.flow (s : State) : Flow :=
  { accepted := s.accepted
    delivered := s.delivered
    stage3 := if s.s3_v then [s.s3_d] else []
    stage2 := if s.s2_v then [xsl15 s.s2_d] else []
    stage1 := if s.s1_v then [xsl15 (xsr17 s.s1_d)] else [] }

/-- The results not yet delivered, the oldest first. -/
def Flow.pending (f : Flow) : List Word :=
  f.stage3 ++ f.stage2 ++ f.stage1

/-- An advancing cycle that delivers what stage 3 holds and accepts the seeds `offered`, none or one. -/
def Flow.cycle (f : Flow) (offered : List Word) : Flow :=
  { accepted := f.accepted ++ offered
    delivered := f.delivered ++ f.stage3
    stage3 := f.stage2
    stage2 := f.stage1
    stage1 := offered.map xorshift32 }

@[simp] theorem State.flow_accepted (s : State) : s.flow.accepted = s.accepted := rfl
@[simp] theorem State.flow_delivered (s : State) : s.flow.delivered = s.delivered := rfl
@[simp] theorem State.flow_pending (s : State) : s.flow.pending = s.pendingResults := rfl

/-- How many transactions are in flight is read off the flow. -/
theorem State.inFlight_eq_length_pending (s : State) : s.inFlight = s.flow.pending.length :=
  s.length_pendingResults.symm

/- One cycle -/

/-- An advancing cycle accepts whatever is offered in it (42_pipeline_protocol.md R99). -/
theorem State.accept_of_adv {s : State} {p : Inputs} (h : p.rst = false) (ha : s.adv p.outReady = true) :
    s.accept p = if p.inValid then some p.inData else none := by
  simp [State.accept, State.inReady, h, ha]

/-- What the stages will deliver after an advancing edge: each stage's result is the one of the stage before it. -/
theorem State.flow_clockCycle_of_adv {s : State} {p : Inputs} (h : p.rst = false) (ha : s.adv p.outReady = true) :
    (s.clockCycle p).flow =
      { accepted := s.accepted ++ (s.accept p).toList
        delivered := s.delivered ++ (s.deliver p).toList
        stage3 := s.flow.stage2
        stage2 := s.flow.stage1
        stage1 := (s.accept p).toList.map xorshift32 } := by
  rw [State.clockCycle_of_adv h ha, State.flow, Flow.mk.injEq]
  refine ⟨rfl, rfl, ?_, ?_, ?_⟩
  · cases hv : s.s2_v <;> simp [State.flow, hv]
  · cases hv : s.s1_v <;> simp [State.flow, hv]
  · cases hv : p.inValid <;> simp [State.accept_of_adv h ha, hv, xorshift32_eq]

section
variable {s : State} {r : Row} (hrst : r.rst = false) (htakes : r.takesResults)
include hrst htakes

/-- A caller that takes any result offered takes stage 3's (42_pipeline_protocol.md R100). -/
theorem State.deliver_of_takes : (s.deliver (r.inputs s)).toList = s.flow.stage3 := by
  cases hv : s.s3_v with
  | false => simp [State.deliver, State.outValid, State.flow, hv]
  | true =>
    have ho : s.outValid r.rst = true := State.outValid_of_row hv hrst
    simp [State.deliver, State.outData_of_outValid ho, State.flow, hv, ho, htakes s.s3_d]

theorem State.flow_clockCycle_of_takes :
    (s.clockCycle (r.inputs s)).flow = s.flow.cycle (s.accept (r.inputs s)).toList := by
  rw [State.flow_clockCycle_of_adv (p := r.inputs s) hrst (Row.adv_of_takes hrst htakes),
    State.deliver_of_takes hrst htakes]
  rfl

end

/- Runs under a list of rows -/

/-- The rows bring every state with `P` to a state with `Q`, one clock cycle each, and are then used up. -/
def Drives (rows : List Row) (P Q : State → Prop) : Prop :=
  ∀ (s : State) (rest : List Row), s.listing = [] → s.stimulus = rows ++ rest → P s →
    ∃ t, run rows.length s = .next t ∧ t.stimulus = rest ∧ Q t

theorem Drives.nil {P Q : State → Prop} (h : ∀ s, P s → Q s) : Drives [] P Q :=
  fun s _ _ hstim hP => ⟨s, rfl, hstim, h s hP⟩

theorem Drives.cons {r : Row} {rows : List Row} {P Q R : State → Prop}
    (h : ∀ s : State, s.inputs = r.inputs s → P s → Q (s.clockCycle s.inputs)) (hrows : Drives rows Q R) :
    Drives (r :: rows) P R := by
  intro s rest hlist hstim hP
  rw [List.length_cons, run_succ_of_listing_nil hlist]
  exact hrows _ rest (by rw [State.clockCycle_listing, hlist]) (by simp [hstim])
    (h s (State.inputs_of_stimulus hstim) hP)

/-- From a state with flow `f`, a row that takes any result offered gives the flow's next cycle; which seed it accepts may
depend on the state. -/
theorem Drives.takes {r : Row} {rows : List Row} {f : Flow} {Q : State → Prop} (hrst : r.rst = false)
    (htakes : r.takesResults)
    (h : ∀ s : State, s.flow = f → Drives rows (State.flow · = f.cycle (s.accept (r.inputs s)).toList) Q) :
    Drives (r :: rows) (State.flow · = f) Q := by
  intro s rest hlist hstim hf
  refine Drives.cons (P := (· = s)) (fun _ hin heq => ?_) (h s hf) s rest hlist hstim rfl
  subst heq
  rw [hin, State.flow_clockCycle_of_takes hrst htakes, hf]

end Sys2Proof.Machine
end

section
/-! PROOFS. Latency, throughput and bounded delivery (70_reset_and_hazards.md R135, R137, R138). -/

namespace Sys2Proof.Machine

/- Latency -/

/-- A seed accepted is in stage 1. -/
theorem State.Carries.of_accept {s : State} {p : Inputs} {w : Word} (h : s.accept p = some w) :
    (s.clockCycle p).Carries w 0 := by
  obtain ⟨-, hstage⟩ := State.clockCycle_of_accept h
  exact hstage

/-- A cycle whose caller takes any result offered brings a transaction one place on. -/
theorem Drives.carries {r : Row} {rows : List Row} {w : Word} {k : Nat} {Q : State → Prop} (hrst : r.rst = false)
    (htakes : r.takesResults) (h : Drives rows (State.Carries · w (k + 1)) Q) :
    Drives (r :: rows) (State.Carries · w k) Q :=
  Drives.cons (fun _ hin hcarries => hin ▸ hcarries.advance hrst (Row.adv_of_takes hrst htakes)) h

/-- A transaction in stage 3 is offered in every cycle without reset (42_pipeline_protocol.md R95). -/
theorem State.Carries.observe {s : State} {w : Word} (h : s.Carries w 2) (hrst : s.inputs.rst = false) :
    s.observe.outValid = true ∧ s.observe.outData = some (xorshift32 w) := by
  obtain ⟨hv, hd⟩ := h
  have ho : s.outValid s.inputs.rst = true := by simp [State.outValid, hv, hrst]
  exact ⟨ho, by rw [State.observe_outData_of_outValid ho, hd]⟩

/-- Settles O42: the accept puts the transaction in stage 1, the two cycles after it advance and bring it to stage 3, and
the third one offers it. -/
theorem latencyWithoutStallIsThreeCycles : Obligations.LatencyWithoutStallIsThreeCycles := by
  intro s r0 r1 r2 r3 rest w hlist hstim hacc hrst1 htakes1 hrst2 htakes2 hrst3
  have hrows : Drives [r0, r1, r2] (fun s => s.accept s.inputs = some w) (State.Carries · w 2) :=
    Drives.cons (fun _ _ => State.Carries.of_accept) <|
      Drives.carries hrst1 htakes1 <| Drives.carries hrst2 htakes2 <| Drives.nil fun _ => id
  obtain ⟨t, hrun, hstim3, hcarries⟩ := hrows s (r3 :: rest) hlist hstim hacc
  exact ⟨t, hrun, hcarries.observe (by rw [State.inputs_of_stimulus hstim3, Row.inputs_rst, hrst3])⟩

/- Bounded delivery -/

/-- Three cycles deliver what the three stages held, whatever the cycles accept. -/
theorem Flow.delivered_cycle_cycle_cycle (f : Flow) (a b c : List Word) :
    (((f.cycle a).cycle b).cycle c).delivered = f.delivered ++ f.pending := by
  simp [Flow.cycle, Flow.pending]

/-- Settles O44: each of the three cycles moves every stage's result one place on. -/
theorem threeReadyCyclesDeliverEverythingInFlight : Obligations.ThreeReadyCyclesDeliverEverythingInFlight := by
  intro s r0 r1 r2 rest hlist hstim hrows
  obtain ⟨⟨hrst0, htakes0⟩, ⟨hrst1, htakes1⟩, ⟨hrst2, htakes2⟩⟩ : (r0.rst = false ∧ r0.takesResults) ∧
      (r1.rst = false ∧ r1.takesResults) ∧ (r2.rst = false ∧ r2.takesResults) := by simpa using hrows
  have hdrives : Drives [r0, r1, r2] (State.flow · = s.flow) (fun t => t.delivered = s.delivered ++ s.pendingResults) :=
    Drives.takes hrst0 htakes0 fun _ _ => Drives.takes hrst1 htakes1 fun _ _ => Drives.takes hrst2 htakes2 fun _ _ =>
      Drives.nil fun t ht => by
        rw [← State.flow_delivered, ht, Flow.delivered_cycle_cycle_cycle, State.flow_delivered, State.flow_pending]
  obtain ⟨t, hrun, hrest, hdel⟩ := hdrives s rest hlist hstim rfl
  exact ⟨t, hrun, hdel, hrest⟩

/- Throughput -/

theorem Row.offer_takesResults (w : Word) : (Row.offer w).takesResults := fun _ => rfl

/-- A literal seed is accepted, since the row takes any result offered (42_pipeline_protocol.md R99). -/
theorem State.accept_offer (s : State) (w : Word) : s.accept ((Row.offer w).inputs s) = some w :=
  State.accept_of_adv rfl (Row.adv_of_takes rfl (Row.offer_takesResults w))

theorem Drives.offer {rows : List Row} {f : Flow} {w : Word} {Q : State → Prop}
    (h : Drives rows (State.flow · = f.cycle [w]) Q) : Drives (Row.offer w :: rows) (State.flow · = f) Q :=
  Drives.takes rfl (Row.offer_takesResults w) fun s _ => by rwa [State.accept_offer, Option.toList_some]

/-- One advancing cycle for each seed. -/
def Flow.offerAll (f : Flow) (ws : List Word) : Flow :=
  ws.foldl (fun f w => f.cycle [w]) f

theorem Flow.offerAll_cons (f : Flow) (w : Word) (ws : List Word) :
    f.offerAll (w :: ws) = (f.cycle [w]).offerAll ws := rfl

theorem Flow.offerAll_append (f : Flow) (ws vs : List Word) :
    f.offerAll (ws ++ vs) = (f.offerAll ws).offerAll vs := List.foldl_append

theorem drives_offers (ws : List Word) (f : Flow) :
    Drives (ws.map Row.offer) (State.flow · = f) (State.flow · = f.offerAll ws) := by
  induction ws generalizing f with
  | nil => exact Drives.nil fun _ => id
  | cons w ws ih => exact (ih (f.cycle [w])).offer

theorem Flow.offerAll_accepted (f : Flow) (ws : List Word) : (f.offerAll ws).accepted = f.accepted ++ ws := by
  induction ws generalizing f with
  | nil => simp [Flow.offerAll]
  | cons w ws ih => simp [Flow.offerAll_cons, ih, Flow.cycle]

/-- A cycle keeps the results in order: what it delivers was the oldest, and what it accepts is behind the others. -/
theorem Flow.cycle_results (f : Flow) (ws : List Word) :
    (f.cycle ws).delivered ++ (f.cycle ws).pending = f.delivered ++ f.pending ++ ws.map xorshift32 := by
  simp [Flow.cycle, Flow.pending]

theorem Flow.offerAll_results (f : Flow) (ws : List Word) :
    (f.offerAll ws).delivered ++ (f.offerAll ws).pending = f.delivered ++ f.pending ++ ws.map xorshift32 := by
  induction ws generalizing f with
  | nil => simp [Flow.offerAll]
  | cons w ws ih => rw [Flow.offerAll_cons, ih, Flow.cycle_results, List.append_assoc]; rfl

/-- After three seeds or more each stage holds one of the last three. -/
theorem Flow.offerAll_pending_length (f : Flow) {ws : List Word} (h : 3 ≤ ws.length) :
    (f.offerAll ws).pending.length = 3 := by
  obtain ⟨a, b, c, hlast⟩ : ∃ a b c, ws.drop (ws.length - 3) = [a, b, c] :=
    List.length_eq_three.mp (by rw [List.length_drop]; omega)
  rw [← List.take_append_drop (ws.length - 3) ws, hlast, Flow.offerAll_append]
  rfl

/-- Settles O43: the rows run the flow's cycles, one for each seed, which accept every seed, keep the results in order and
leave the last three seeds in the stages. -/
theorem oneSeedIsAcceptedPerCycle : Obligations.OneSeedIsAcceptedPerCycle := by
  intro ws rest s hlist hstim
  obtain ⟨t, hrun, hrest, ht⟩ := drives_offers ws s.flow s rest hlist hstim rfl
  rw [List.length_map] at hrun
  refine ⟨t, hrun, ?_, ?_, fun hlen => ?_, hrest⟩
  · rw [← State.flow_accepted, ht, Flow.offerAll_accepted, State.flow_accepted]
  · rw [← State.flow_delivered, ← State.flow_pending, ht, Flow.offerAll_results, State.flow_delivered, State.flow_pending]
  · rw [State.inFlight_eq_length_pending, ht, Flow.offerAll_pending_length _ hlen]

end Sys2Proof.Machine
end

section
/-! PROOFS. The feedback chain, one result in three cycles (70_reset_and_hazards.md R136, 30_encoding.md R63). -/

namespace Sys2Proof.Machine

theorem Row.feedback_takesResults : Row.feedback.takesResults := fun _ => rfl

theorem Row.drain_takesResults : Row.drain.takesResults := fun _ => rfl

/-- Under the feedback row every result is accepted as a seed at the edge that delivers it (70_reset_and_hazards.md R136). -/
theorem State.accept_feedback (s : State) : s.accept (Row.feedback.inputs s) = s.deliver (Row.feedback.inputs s) := by
  have ho : (Row.feedback.inputs s).outReady = true := rfl
  rw [State.accept_of_adv rfl (Row.adv_of_takes rfl Row.feedback_takesResults), State.deliver, ho, Bool.and_true]
  rfl

theorem State.accept_drain (s : State) : s.accept (Row.drain.inputs s) = none := rfl

theorem Drives.feedback {rows : List Row} {f : Flow} {Q : State → Prop}
    (h : Drives rows (State.flow · = f.cycle f.stage3) Q) : Drives (Row.feedback :: rows) (State.flow · = f) Q :=
  Drives.takes rfl Row.feedback_takesResults fun s hf => by
    rwa [State.accept_feedback, State.deliver_of_takes rfl Row.feedback_takesResults, hf]

theorem Drives.drain {rows : List Row} {f : Flow} {Q : State → Prop}
    (h : Drives rows (State.flow · = f.cycle []) Q) : Drives (Row.drain :: rows) (State.flow · = f) Q :=
  Drives.takes rfl Row.drain_takesResults fun s _ => by rwa [State.accept_drain, Option.toList_none]

/-- A lone transaction of the chain goes from stage 1 to stage 3 in two cycles that accept and deliver nothing. -/
theorem Drives.feedback_feedback {rows : List Row} {acc del : List Word} {r : Word} {Q : State → Prop}
    (h : Drives rows (State.flow · = ⟨acc, del, [r], [], []⟩) Q) :
    Drives (Row.feedback :: Row.feedback :: rows) (State.flow · = ⟨acc, del, [], [], [r]⟩) Q :=
  Drives.feedback <| Drives.feedback <| by simpa [Flow.cycle] using h

/-- The chain from the cycle in which result `r` is offered: it is fed back `n` times, and the last result is taken without
feeding it back (log 25). -/
theorem drives_feedback_chain (n : Nat) (acc del : List Word) (r : Word) :
    Drives (List.replicate (3 * n) Row.feedback ++ [Row.drain]) (State.flow · = ⟨acc, del, [r], [], []⟩)
      (State.flow · = ⟨acc ++ iterSeeds n r, del ++ r :: iterResults n r, [], [], []⟩) := by
  induction n generalizing acc del r with
  | zero => exact Drives.drain <| Drives.nil fun _ => id
  | succ n ih =>
    have hnext := ih (acc ++ [r]) (del ++ [r]) (xorshift32 r)
    rw [List.append_assoc, List.append_assoc] at hnext
    exact hnext.feedback_feedback.feedback

/-- `ITER` from an empty pipeline: the seed is offered, and its result begins the chain. -/
theorem drives_iterStimulus (n : Nat) (acc del : List Word) (seed : Word) :
    Drives (iterStimulus (n + 1) seed) (State.flow · = ⟨acc, del, [], [], []⟩)
      (State.flow · = ⟨acc ++ iterSeeds (n + 1) seed, del ++ iterResults (n + 1) seed, [], [], []⟩) := by
  have hchain := drives_feedback_chain n (acc ++ [seed]) (del ++ []) (xorshift32 seed)
  rw [List.append_assoc, List.append_assoc] at hchain
  exact hchain.feedback_feedback.offer

theorem length_iterStimulus (n : Nat) (seed : Word) : (iterStimulus (n + 1) seed).length = 3 * (n + 1) + 1 := by
  simp only [iterStimulus, List.length_cons, List.length_append, List.length_replicate, List.length_nil]
  omega

/-- An empty pipeline has nothing to deliver. -/
theorem State.flow_of_inFlight_eq_zero {s : State} (h : s.inFlight = 0) :
    s.flow = ⟨s.accepted, s.delivered, [], [], []⟩ := by
  rw [State.inFlight_eq_length_pending, List.length_eq_zero_iff, Flow.pending, List.append_eq_nil_iff,
    List.append_eq_nil_iff] at h
  obtain ⟨⟨h3, h2⟩, h1⟩ := h
  calc s.flow = ⟨s.accepted, s.delivered, s.flow.stage3, s.flow.stage2, s.flow.stage1⟩ := rfl
    _ = ⟨s.accepted, s.delivered, [], [], []⟩ := by rw [h3, h2, h1]

/-- Settles O45: an empty pipeline's flow holds its history alone, and the rows of `ITER` add the chain's seeds and results
to it. -/
theorem feedbackChainTakesThreeCyclesPerResult : Obligations.FeedbackChainTakesThreeCyclesPerResult := by
  intro n seed rest s hn hlist hempty hstim
  obtain ⟨n, rfl⟩ := Nat.exists_eq_add_of_le' hn
  obtain ⟨t, hrun, hrest, ht⟩ := drives_iterStimulus n s.accepted s.delivered seed s rest hlist hstim
    (State.flow_of_inFlight_eq_zero hempty)
  rw [length_iterStimulus] at hrun
  exact ⟨t, hrun, congrArg Flow.accepted ht, congrArg Flow.delivered ht,
    by rw [State.inFlight_eq_length_pending, ht]; rfl, hrest⟩

end Sys2Proof.Machine
end
